-- ==== Sys2Proof/Word.lean ====
section
/-! DEFINITION. The two machine widths of the CORE (spec/00_scope.md R6): a byte is 8 bits, a lane or word is
32 bits. -/

namespace Sys2Proof

/-- A byte (R6). -/
abbrev Byte := BitVec 8

/-- A 32-bit lane, word or limb register (R6). -/
abbrev Word := BitVec 32

end Sys2Proof
end

