-- ==== Sys2Proof/Syntax.lean ====
section
/-! DEFINITION. The ten commands of the CORE (spec/30_encoding.md R84), one constructor per row of
spec/opcode_table.json. The only operand a command word carries is LEN (R80, R81); every other operand is bytes of
DIN (R82). -/

namespace Sys2Proof

/-- A command of the CORE (R84). `len` is the 7-bit LEN field w[14:8], unsigned and unscaled (R81). -/
inductive Instr where
  /-- CC_INIT, OP 0x01: load key, nonce and start counter (R134). -/
  | ccInit
  /-- CC_SETCTR, OP 0x02: set the block counter before first use (R135). -/
  | ccSetctr
  /-- CC_BLOCK, OP 0x03: output one raw keystream block (R136). -/
  | ccBlock
  /-- CC_XOR n, OP 0x04: XOR one chunk of n bytes with the keystream (R137). -/
  | ccXor (len : BitVec 7)
  /-- CC_CLEAR, OP 0x05: wipe the KSG (R145). -/
  | ccClear
  /-- P_INIT, OP 0x11: key the P1305 unit (R180). -/
  | pInit
  /-- P_UPDATE n, OP 0x12: absorb n message bytes (R181). -/
  | pUpdate (len : BitVec 7)
  /-- P_FINAL, OP 0x13: compute and output the tag (R183). -/
  | pFinal
  /-- P_VERIFY, OP 0x14: compute the tag and compare it (R184). -/
  | pVerify
  /-- P_CLEAR, OP 0x15: wipe the P1305 unit (R186). -/
  | pClear
deriving DecidableEq, Repr

/-- The two units of the CORE (R1). -/
inductive CoreUnit where
  | ksg
  | p1305
deriving DecidableEq, Repr

/-- The unit a command belongs to (R84, column "unit"). -/
def Instr.unit : Instr → CoreUnit
  | .ccInit => .ksg
  | .ccSetctr => .ksg
  | .ccBlock => .ksg
  | .ccXor _ => .ksg
  | .ccClear => .ksg
  | .pInit => .p1305
  | .pUpdate _ => .p1305
  | .pFinal => .p1305
  | .pVerify => .p1305
  | .pClear => .p1305

end Sys2Proof
end

