-- ==== Sys2Proof/WellFormed.lean ====
section
/-! DEFINITION. Which terms of `Instr` are commands of the CORE: LEN is 0..64 (spec/30_encoding.md R81). -/

namespace Sys2Proof

/-- The legal range of LEN for CC_XOR and P_UPDATE (R81). -/
def legalLen (len : BitVec 7) : Bool := len.toNat ≤ 64

/-- A well-formed command: the LEN of CC_XOR and P_UPDATE is in 0..64 (R81); the other commands have no LEN. -/
def Instr.wellFormed : Instr → Bool
  | .ccInit => true
  | .ccSetctr => true
  | .ccBlock => true
  | .ccXor len => legalLen len
  | .ccClear => true
  | .pInit => true
  | .pUpdate len => legalLen len
  | .pFinal => true
  | .pVerify => true
  | .pClear => true

end Sys2Proof
end

