-- ==== Sys2Proof/Decode.lean ====
section
/-! DEFINITION. The decoder of command words (spec/30_encoding.md R80-R86), total on every 32-bit word and
rejecting by name, and after it the encoder. A rejected word is an IllegalCommand (R83). -/

namespace Sys2Proof

/-- Why a command word selects no command: the three tests of `decode` in R83. Each completes with
IllegalCommand. -/
inductive DecodeError where
  /-- A bit of RSV, w[31:15], is set. -/
  | reservedBitSet
  /-- OP, w[7:0], is not in the opcode map. -/
  | unknownOpcode
  /-- LEN above 64 on CC_XOR or P_UPDATE, or LEN other than 0 on any other command. -/
  | illegalLen
deriving DecidableEq, Repr

/-- OP = w[7:0] (R80). -/
def opField (w : Word) : BitVec 8 := w.extractLsb' 0 8

/-- LEN = w[14:8] (R80, R81). -/
def lenField (w : Word) : BitVec 7 := w.extractLsb' 8 7

/-- RSV = w[31:15] (R80). -/
def rsvField (w : Word) : BitVec 17 := w.extractLsb' 15 17

/-- A command that has a LEN: LEN 65..127 is illegal (R83, R85). -/
def withLen (len : BitVec 7) (i : Instr) : Except DecodeError Instr :=
  if legalLen len then .ok i else .error .illegalLen

/-- A command without a LEN: LEN ≠ 0 is illegal (R83, R85). -/
def withoutLen (len : BitVec 7) (i : Instr) : Except DecodeError Instr :=
  if len = 0 then .ok i else .error .illegalLen

/-- The opcode map (R84): OP and LEN to a command. -/
def decodeOp (op : BitVec 8) (len : BitVec 7) : Except DecodeError Instr :=
  if op = 0x01 then withoutLen len .ccInit
  else if op = 0x02 then withoutLen len .ccSetctr
  else if op = 0x03 then withoutLen len .ccBlock
  else if op = 0x04 then withLen len (.ccXor len)
  else if op = 0x05 then withoutLen len .ccClear
  else if op = 0x11 then withoutLen len .pInit
  else if op = 0x12 then withLen len (.pUpdate len)
  else if op = 0x13 then withoutLen len .pFinal
  else if op = 0x14 then withoutLen len .pVerify
  else if op = 0x15 then withoutLen len .pClear
  else .error .unknownOpcode

/-- `decode(w)` of R83. -/
def decode (w : Word) : Except DecodeError Instr :=
  if rsvField w ≠ 0 then .error .reservedBitSet else decodeOp (opField w) (lenField w)

/-- The 32-bit command word of an opcode-table row of `nbits` bits numbered from bit 0 of the word; every bit
above `nbits` is 0. `none` when a bit above bit 31 is set: a command is one 32-bit word (R86). -/
def tableWord (nbits w : Nat) : Option Word :=
  if w % 2 ^ nbits < 2 ^ 32 then some (BitVec.ofNat 32 (w % 2 ^ nbits)) else none

/-- The command the decoder reads from a table word; `none` where it is an IllegalCommand. -/
def decodeTableWord (nbits w : Nat) : Option Instr :=
  match tableWord nbits w with
  | none => none
  | some word =>
    match decode word with
    | .ok i => some i
    | .error _ => none

/-- The OP of a command (R84). -/
def Instr.opcode : Instr → BitVec 8
  | .ccInit => 0x01
  | .ccSetctr => 0x02
  | .ccBlock => 0x03
  | .ccXor _ => 0x04
  | .ccClear => 0x05
  | .pInit => 0x11
  | .pUpdate _ => 0x12
  | .pFinal => 0x13
  | .pVerify => 0x14
  | .pClear => 0x15

/-- The LEN of a command: 0 for a command without one (R81). -/
def Instr.lenBits : Instr → BitVec 7
  | .ccInit => 0
  | .ccSetctr => 0
  | .ccBlock => 0
  | .ccXor len => len
  | .ccClear => 0
  | .pInit => 0
  | .pUpdate len => len
  | .pFinal => 0
  | .pVerify => 0
  | .pClear => 0

/-- The command word of a command: RSV = 0, then LEN, then OP (R80, R84). -/
def encode (i : Instr) : Word := BitVec.ofNat 32 (i.opcode.toNat + 2 ^ 8 * i.lenBits.toNat)

end Sys2Proof
end

