-- ==== Sys2Proof/Machine/State.lean ====
section
/-! DEFINITION. The state of the machine: every register of spec/10_state.md (R22-R44), grouped by unit as the
spec groups it, and the HOST agent (spec/00_scope.md R11) as plain data: the bus operations it has yet to make and
the values its reads returned. The state after reset is spec/70_reset_and_hazards.md R230. -/

namespace Sys2Proof.Machine

/-- STATUS.ERR (R23, R200). Codes 5-15 are never produced and have no constructor; `authFail` is reserved and
never written (R210). -/
inductive ErrCode where
  | ok
  | lengthExceeded
  | orderingViolation
  | authFail
  | illegalCommand
deriving DecidableEq, Repr

/-- PST, the lifecycle of the P1305 unit (R43). The value 3 never occurs (R26, U9). -/
inductive Pst where
  | unkeyed
  | absorb
  | spent
deriving DecidableEq, Repr

/-- SEQ, the state of the round sequencer (R38). -/
inductive SeqState where
  | idle
  | load
  | round
  | feed
  | out
deriving DecidableEq, Repr

/-- H, the half of a double round (R38). -/
inductive Half where
  | column
  | diagonal
deriving DecidableEq, Repr

/-- One event on the CORE's side of the host bus (R11, R50, R87, R88, R230). An offset is a byte offset 0x00-0xFF
of the register window; `size` is the access size in bytes. -/
inductive HostOp where
  /-- A bus read, `RD off` when it is an aligned 32-bit one (R87). -/
  | read (off : BitVec 8) (size : Nat)
  /-- A bus write, `WR off, v` when it is an aligned 32-bit one (R87). -/
  | write (off : BitVec 8) (size : Nat) (v : Word)
  /-- `POLL`: repeat `RD 0x04` until its bit 0 is 0 (R88). -/
  | poll
  /-- The reset input is asserted and released (R230, R232). -/
  | reset
deriving DecidableEq, Repr

/-- The registers of the window (R51), each DIN and DOUT word by its index. -/
inductive WinReg where
  | cmd
  | status
  | ccCtr
  | ccFlags
  | pFlags
  | din (j : Fin 16)
  | dout (j : Fin 16)
  | reserved
deriving DecidableEq, Repr

/-- The interface registers (R22, R23, R27, R28, R44). -/
structure Interface where
  /-- LCMD: the latched command word (R22). -/
  lcmd : Word
  /-- STATUS.BUSY (R23). -/
  busy : Bool
  /-- STATUS.ERR (R23). -/
  err : ErrCode
  /-- STATUS.MATCH (R23). -/
  matched : Bool
  /-- STATUS.OUTLEN (R23). -/
  outlen : BitVec 7
  /-- DIN[0..63], the operand buffer (R27). -/
  din : Vector Byte 64
  /-- DOUT[0..63], the result buffer (R28). -/
  dout : Vector Byte 64
deriving DecidableEq, Repr

/-- The registers of the keystream generator (R29, R30, R32-R34). -/
structure Ksg where
  /-- KEY[0..7] (R29). -/
  key : Vector Word 8
  /-- NONCE[0..2] (R30). -/
  nonce : Vector Word 3
  /-- CTR (R32). -/
  ctr : Word
  /-- EXH (R32). -/
  exh : Bool
  /-- KEYED (R33). -/
  keyed : Bool
  /-- USED (R34). -/
  used : Bool
deriving DecidableEq, Repr

/-- The registers of the block-function datapath and its round sequencer (R35-R38). -/
structure Datapath where
  /-- X[0..15] (R35). -/
  x : Vector Word 16
  /-- SNAP[0..15] (R36). -/
  snap : Vector Word 16
  /-- KS[0..63] (R37). -/
  ks : Vector Byte 64
  /-- SEQ (R38). -/
  seq : SeqState
  /-- RC, the iteration count 0..9 (R38). -/
  rc : Fin 10
  /-- H (R38). -/
  half : Half
  /-- QI, the quarter-round index 0..3 (R38). -/
  qi : Fin 4
deriving DecidableEq, Repr

/-- The registers of the Poly1305 unit (R39-R43). -/
structure P1305 where
  /-- PR[0..4]: the clamped r as base-2^26 digits (R39). -/
  pr : Vector Word 5
  /-- PS[0..3]: s as 32-bit lanes (R40). -/
  ps : Vector Word 4
  /-- PA[0..4]: the accumulator as base-2^26 digits with slack (R41). -/
  pa : Vector Word 5
  /-- PBUF[0..15] (R42). -/
  pbuf : Vector Byte 16
  /-- PCNT, in the width of its P_FLAGS field (R26, R42). -/
  pcnt : BitVec 5
  /-- PST (R43). -/
  pst : Pst
deriving DecidableEq, Repr

/-- The HOST agent (R11) as the model holds it. None of these is a register of the CORE (assumption logs 1-3). -/
structure HostSide where
  /-- Bus operations the HOST has yet to make, in its program order, oldest first (R11, R60). -/
  queue : List HostOp
  /-- Values the HOST's reads have returned (`RD off -> name`, R87), newest first. -/
  seen : List Word
  /-- Number of free draws taken so far (R240). -/
  draws : Nat
  /-- While BUSY = 1: host operations still to be served before the CORE's step (R240, R244). -/
  wait : Nat
deriving DecidableEq, Repr

/-- The state of the machine. -/
structure State where
  io : Interface
  ksg : Ksg
  dp : Datapath
  p : P1305
  host : HostSide
deriving DecidableEq, Repr

/-- The two host actions the hardware gives no effect (R211). The model stops; a faulted run does not go on. -/
inductive Fault where
  /-- Raised by the register window on an access that is not an aligned 32-bit access (R52). Safe: the CORE
  answers a bus error and changes nothing, and how the host goes on is outside the spec. -/
  | accessFault
  /-- Raised by the register window on a write to CMD or DIN while BUSY = 1 (R241). Safe: the hardware may drop
  the write, apply it or corrupt the command in flight, and the model stops instead. -/
  | hostProtocolViolation
deriving DecidableEq, Repr

/-- Why the model gives a command no meaning. -/
inductive Refusal where
  /-- Raised by `exec` for a command without a meaning yet. No arm raises it: all ten commands are modelled.
  Safe: the model stops. -/
  | notModelled (mnemonic : String)
deriving DecidableEq, Repr

/-- What a step answers. -/
abbrev Result := Host.Outcome State Fault Refusal

/-- An all-zero register array. -/
def zeros (w n : Nat) : Vector (BitVec w) n := Vector.replicate n 0

/-- Reset values of the interface registers (R230). -/
def Interface.reset : Interface where
  lcmd := 0
  busy := false
  err := .ok
  matched := false
  outlen := 0
  din := zeros 8 64
  dout := zeros 8 64

/-- Reset values of the keystream generator (R230). -/
def Ksg.reset : Ksg where
  key := zeros 32 8
  nonce := zeros 32 3
  ctr := 0
  exh := false
  keyed := false
  used := false

/-- Reset values of the block-function datapath (R230). -/
def Datapath.reset : Datapath where
  x := zeros 32 16
  snap := zeros 32 16
  ks := zeros 8 64
  seq := .idle
  rc := 0
  half := .column
  qi := 0

/-- Reset values of the Poly1305 unit (R230). -/
def P1305.reset : P1305 where
  pr := zeros 32 5
  ps := zeros 32 4
  pa := zeros 32 5
  pbuf := zeros 8 16
  pcnt := 0
  pst := .unkeyed

/-- The HOST before it has made any access: nothing to do and nothing read. DESIGN CHOICE (assumption log 1): the
spec gives the HOST no reset; no program is placed here. -/
def HostSide.reset : HostSide where
  queue := []
  seen := []
  draws := 0
  wait := 0

/-- The machine right after reset (R230). -/
def State.reset : State where
  io := .reset
  ksg := .reset
  dp := .reset
  p := .reset
  host := .reset

end Sys2Proof.Machine
end

