-- ==== Sys2Proof/Machine/Ops.lean ====
section
/-! DEFINITION. The shared operations: byte order (spec/00_scope.md R8), the frame every command runs in
(spec/60_exceptions.md R204) and, as one operation, ending a command with an error (R9 `raise`, R203), which is all
the CORE has in place of an exception: there is no handler and no return (R205-R207). -/

namespace Sys2Proof.Machine

/-- Byte k of a word: bits 8k+7 to 8k (R8). -/
def byteOf (w : Word) (k : Nat) : Byte := w.extractLsb' (8 * k) 8

/-- The word of four bytes, the first the least significant: b0 + 2^8·b1 + 2^16·b2 + 2^24·b3 (R8, `LE32`). -/
def word32 (b0 b1 b2 b3 : Byte) : Word :=
  BitVec.ofNat 32 (b0.toNat + 2 ^ 8 * b1.toNat + 2 ^ 16 * b2.toNat + 2 ^ 24 * b3.toNat)

/-- b[i] of a byte array; every caller's i is in range. -/
def byteAt {n : Nat} (b : Vector Byte n) (i : Nat) : Byte := b[i]?.getD 0

/-- `LE32(b, i)` (R8). -/
def le32 {n : Nat} (b : Vector Byte n) (i : Nat) : Word :=
  word32 (byteAt b i) (byteAt b (i + 1)) (byteAt b (i + 2)) (byteAt b (i + 3))

/-- `LEn(b)`: the little-endian integer of a byte string (R8). -/
def leNat : List Byte → Nat
  | [] => 0
  | b :: bs => b.toNat + 256 * leNat bs

/-- b[lo..hi) of a byte array (R8). -/
def slice {n : Nat} (b : Vector Byte n) (lo hi : Nat) : List Byte := (b.toList.drop lo).take (hi - lo)

/-- The bytes of a word array, each word little-endian, in word order (R8 `ST32`, joined). -/
def bytesOfWords {n m : Nat} (v : Vector Word n) : Vector Byte m :=
  Vector.ofFn fun i : Fin m => byteOf (v[i.val / 4]?.getD 0) (i.val % 4)

/-- The bytes of a word (R8 `ST32`). -/
def bytesOfWord (w : Word) : List Byte := [byteOf w 0, byteOf w 1, byteOf w 2, byteOf w 3]

/-- The first part of the command frame (R204): DOUT, OUTLEN and MATCH are cleared. -/
def beginCommand (s : State) : State :=
  { s with io.dout := zeros 8 64, io.outlen := 0, io.matched := false }

/-- The last part of the command frame (R204): ERR is set, DIN and BUSY are cleared. -/
def finishCommand (e : ErrCode) (s : State) : State :=
  { s with io.err := e, io.din := zeros 8 64, io.busy := false }

/-- `raise E` (R9, R203): the command ends with error code E, having written nothing but what the frame writes. -/
def raise (e : ErrCode) (s : State) : Result := .next (finishCommand e (beginCommand s))

/-- The command frame (R204) around a command's body. The body answers the unit state it leaves, or the code it
raises. -/
def runCommand (body : State → Except ErrCode State) (s : State) : Result :=
  match body (beginCommand s) with
  | .ok t => .next (finishCommand .ok t)
  | .error e => raise e s

/-- The CORE's step on a word that selects no command (R83, R204). -/
def illegalCommand (s : State) : Result := raise .illegalCommand s

/-- PR, PS, PA, PBUF and PCNT set to 0 with the given PST (R186, R189). -/
def P1305.wiped (pst : Pst) : P1305 where
  pr := zeros 32 5
  ps := zeros 32 4
  pa := zeros 32 5
  pbuf := zeros 8 16
  pcnt := 0
  pst := pst

end Sys2Proof.Machine
end

