-- ==== Sys2Proof/Machine/Operands.lean ====
section
/-! DEFINITION. Operand assembly from DIN (spec/30_encoding.md R82): every operand form a command has. DIN bytes an
operand does not list are not read. -/

namespace Sys2Proof.Machine

/-- CC_INIT key: KEY[i] = LE32(DIN, 4i), from DIN[0..32) (R82, R134). -/
def keyOperand (din : Vector Byte 64) : Vector Word 8 := Vector.ofFn fun i : Fin 8 => le32 din (4 * i.val)

/-- CC_INIT nonce: NONCE[j] = LE32(DIN, 32 + 4j), from DIN[32..44) (R82, R134). -/
def nonceOperand (din : Vector Byte 64) : Vector Word 3 := Vector.ofFn fun j : Fin 3 => le32 din (32 + 4 * j.val)

/-- CC_INIT counter: LE32(DIN, 44) (R82, R134). -/
def initCtrOperand (din : Vector Byte 64) : Word := le32 din 44

/-- CC_SETCTR counter: LE32(DIN, 0) (R82, R135). -/
def setCtrOperand (din : Vector Byte 64) : Word := le32 din 0

/-- P_INIT r before clamp: LE128(DIN[0..16)) (R82, R180). -/
def rOperand (din : Vector Byte 64) : Nat := leNat (slice din 0 16)

/-- P_INIT s: PS[i] = LE32(DIN, 16 + 4i), from DIN[16..32) (R82, R162). -/
def sOperand (din : Vector Byte 64) : Vector Word 4 := Vector.ofFn fun i : Fin 4 => le32 din (16 + 4 * i.val)

/-- P_UPDATE n message bytes: DIN[0..n) (R82, R181). -/
def messageOperand (din : Vector Byte 64) (n : Nat) : List Byte := slice din 0 n

/-- P_VERIFY expected tag: DIN[0..16) (R82, R184). -/
def tagOperand (din : Vector Byte 64) : Vector Byte 16 := Vector.ofFn fun i : Fin 16 => byteAt din i.val

end Sys2Proof.Machine
end

