-- ==== Sys2Proof/Config.lean ====
section
/-! DEFINITION. The three OPEN parameters of the spec (spec/00_scope.md R5: BASE, LAT, QR_UNITS) and the free
values it leaves open (spec/93_implementation_defined.md U1-U3, U6, U7). Everything here is opaque: no proof can
see a value of it, so a claim about the model holds whatever the implementation chose. -/

namespace Sys2Proof

/-- QR_UNITS (R5, R117): how many quarter-round units work in parallel. It is one of 1, 2 and 4, and no host can
observe it. -/
inductive QrUnits where
  | one
  | two
  | four
deriving DecidableEq, Repr, Inhabited

/-- How many quarter rounds one pass over the units does. -/
def QrUnits.count : QrUnits → Nat
  | .one => 1
  | .two => 2
  | .four => 4

/-- The public flags LAT may depend on besides the command word: KEYED, USED, EXH, PST and PCNT (R243), in the
widths CC_FLAGS and P_FLAGS show them in (R25, R26). -/
structure PublicFlags where
  keyed : Bool
  used : Bool
  exh : Bool
  pst : BitVec 2
  pcnt : BitVec 5
deriving DecidableEq, Repr

/-- BASE is a multiple of 256 (R50); this is BASE / 256, the platform's choice (assumption log 4). -/
opaque Config.basePage : Nat

/-- BASE: the host address of the register window (R5, R50). -/
def Config.base : Nat := 256 * Config.basePage

/-- LAT minus 1. Its type is rule R243: a function of the command word and of public flags only (log 3). -/
opaque Config.latMinusOne : Word → PublicFlags → Nat

/-- LAT(cmd, flags): cycles from a CMD write until BUSY = 0, at least 1 (R5, R244). -/
def Config.lat (cmd : Word) (flags : PublicFlags) : Nat := Config.latMinusOne cmd flags + 1

/-- How many host accesses the bus delivers before the CORE's step, for a latency and a draw number: a free
value (the spec has no time, R244), see assumption log 3. -/
opaque Config.busyAccesses : Nat → Nat → Nat

/-- The free draw of a read the spec leaves unspecified while BUSY = 1 (R240, U6, U7), one for each draw number
(assumption log 2). -/
opaque Config.freeWord : Nat → Word

/-- QR_UNITS of this implementation (R5). -/
opaque Config.qrUnits : QrUnits

end Sys2Proof
end

