-- ==== Sys2Proof/Machine/ChaCha.lean ====
section
/-! DEFINITION. The ChaCha20 block function (spec/40_chacha20_block.md R100-R111) as pure functions: the adder, the
rotator, the quarter round, the rounds, the feed-forward and the serialization. -/

namespace Sys2Proof.Machine

/-- Lanes 0-3: the bytes of "expand 32-byte k" as little-endian lanes (R100). -/
def sigma : Vector Word 4 := #v[0x61707865, 0x3320646E, 0x79622D32, 0x6B206574]

/-- The adder x ⊞ y: the carry out of bit 31 is discarded (R101). -/
def add32 (x y : Word) : Word := x + y

/-- The rotator: left rotation by 0 < n < 32 (R7, R102). -/
def rotl (x : Word) (n : Nat) : Word := (x <<< n) ||| (x >>> (32 - n))

/-- The quarter round QR(a, b, c, d) (R103). -/
def quarterRound (a b c d : Word) : Word × Word × Word × Word :=
  let a := add32 a b; let d := d ^^^ a; let d := rotl d 16
  let c := add32 c d; let b := b ^^^ c; let b := rotl b 12
  let a := add32 a b; let d := d ^^^ a; let d := rotl d 8
  let c := add32 c d; let b := b ^^^ c; let b := rotl b 7
  (a, b, c, d)

/-- The four lane numbers (i, j, k, l) a quarter round works on. -/
abbrev LaneGroup := Fin 16 × Fin 16 × Fin 16 × Fin 16

/-- The column groups, in order (R105). -/
def columnGroups : List LaneGroup := [(0, 4, 8, 12), (1, 5, 9, 13), (2, 6, 10, 14), (3, 7, 11, 15)]

/-- The diagonal groups, in order (R105). -/
def diagonalGroups : List LaneGroup := [(0, 5, 10, 15), (1, 6, 11, 12), (2, 7, 8, 13), (3, 4, 9, 14)]

/-- The quarter round of the lanes of a group, as values. -/
def groupQr (x : Vector Word 16) (g : LaneGroup) : Word × Word × Word × Word :=
  quarterRound x[g.1] x[g.2.1] x[g.2.2.1] x[g.2.2.2]

/-- Write four lane values back to the lanes of a group. -/
def writeGroup (x : Vector Word 16) (g : LaneGroup) (q : Word × Word × Word × Word) : Vector Word 16 :=
  (((x.set g.1 q.1).set g.2.1 q.2.1).set g.2.2.1 q.2.2.1).set g.2.2.2 q.2.2.2

/-- "QR on (i, j, k, l)" (R105). -/
def qrOn (x : Vector Word 16) (g : LaneGroup) : Vector Word 16 := writeGroup x g (groupQr x g)

/-- The column round (R105). -/
def columnRound (x : Vector Word 16) : Vector Word 16 := columnGroups.foldl qrOn x

/-- The diagonal round (R105). -/
def diagonalRound (x : Vector Word 16) : Vector Word 16 := diagonalGroups.foldl qrOn x

/-- The double round DR (R106). -/
def doubleRound (x : Vector Word 16) : Vector Word 16 := diagonalRound (columnRound x)

/-- n double rounds (R108). -/
def doubleRounds : Nat → Vector Word 16 → Vector Word 16
  | 0, x => x
  | n + 1, x => doubleRounds n (doubleRound x)

/-- The initial state init(K, c, N) (R104). -/
def initState (key : Vector Word 8) (c : Word) (nonce : Vector Word 3) : Vector Word 16 :=
  #v[sigma[0], sigma[1], sigma[2], sigma[3],
     key[0], key[1], key[2], key[3],
     key[4], key[5], key[6], key[7],
     c, nonce[0], nonce[1], nonce[2]]

/-- The feed-forward: add the snapshot back, lane by lane (R109). -/
def feedForward (x snap : Vector Word 16) : Vector Word 16 :=
  Vector.ofFn fun i : Fin 16 => add32 x[i] snap[i]

/-- Serialization: the lanes in order, each little-endian (R110). -/
def serialize (x : Vector Word 16) : Vector Byte 64 := bytesOfWords x

/-- The block function BlockFn(K, c, N), ten double rounds (R111). -/
def blockFn (key : Vector Word 8) (c : Word) (nonce : Vector Word 3) : Vector Byte 64 :=
  let s := initState key c nonce
  serialize (feedForward (doubleRounds 10 s) s)

end Sys2Proof.Machine
end

