-- ==== Sys2Proof/Machine/Sequencer.lean ====
section
/-! DEFINITION. The round sequencer (spec/40_chacha20_block.md R113) as a machine of its own over the datapath
registers, for any number of quarter-round units (R116, R117). Commands are atomic (R10), so the step does not run
it tick by tick: `blockFn` is what it computes, and an obligation says so. -/

namespace Sys2Proof.Machine

/-- The lane groups of a half round (R105). -/
def halfGroups : Half → List LaneGroup
  | .column => columnGroups
  | .diagonal => diagonalGroups

/-- The groups the units take together: as many as there are units, from index `qi` on (R113, R117). -/
def issuedGroups (u : QrUnits) (h : Half) (qi : Fin 4) : List LaneGroup := ((halfGroups h).drop qi.val).take u.count

/-- Quarter rounds done together: every group reads the lanes as they were before any of them wrote (R115, R116). -/
def parallelQr (gs : List LaneGroup) (x : Vector Word 16) : Vector Word 16 :=
  gs.foldl (fun y g => writeGroup y g (groupQr x g)) x

/-- The start of a block: IDLE to LOAD (R113). -/
def seqStart (d : Datapath) : Datapath := { d with seq := .load }

/-- The end of a half round (R113): a column half is followed by the diagonal half; a diagonal half ends an
iteration, and the tenth goes to FEED. RC stays in 0..9 (R38): it returns to 0 there (assumption log 6). -/
def seqNextHalf (d : Datapath) : Datapath :=
  match d.half with
  | .column => { d with half := .diagonal, qi := 0 }
  | .diagonal =>
    if d.rc.val + 1 = 10 then { d with half := .column, qi := 0, rc := 0, seq := .feed }
    else { d with half := .column, qi := 0, rc := d.rc + 1 }

/-- One pass of the quarter-round units (R113, state ROUND). -/
def seqRound (u : QrUnits) (d : Datapath) : Datapath :=
  let d' := { d with x := parallelQr (issuedGroups u d.half d.qi) d.x }
  if 4 ≤ d.qi.val + u.count then seqNextHalf d' else { d' with qi := Fin.ofNat 4 (d.qi.val + u.count) }

/-- One move of the sequencer (R113). IDLE waits for a start. -/
def seqTick (u : QrUnits) (k : Ksg) (d : Datapath) : Datapath :=
  match d.seq with
  | .idle => d
  | .load =>
    { d with
      x := initState k.key k.ctr k.nonce, snap := initState k.key k.ctr k.nonce,
      rc := 0, half := .column, qi := 0, seq := .round }
  | .round => seqRound u d
  | .feed => { d with x := feedForward d.x d.snap, seq := .out }
  | .out => { d with ks := serialize d.x, x := zeros 32 16, snap := zeros 32 16, seq := .idle }

/-- n moves of the sequencer. -/
def seqRun (u : QrUnits) (k : Ksg) : Nat → Datapath → Datapath
  | 0, d => d
  | n + 1, d => seqRun u k n (seqTick u k d)

/-- How many moves one block takes: LOAD, the passes of twenty half rounds, FEED and OUT. -/
def seqMoves (u : QrUnits) : Nat := 1 + 20 * (4 / u.count) + 2

/-- The datapath as a block generation leaves it, before KS is handed on: KS holds the block, X and SNAP are 0
and the sequencer is back in IDLE (R112, R113). -/
def Datapath.afterBlock (block : Vector Byte 64) : Datapath where
  x := zeros 32 16
  snap := zeros 32 16
  ks := block
  seq := .idle
  rc := 0
  half := .column
  qi := 0

end Sys2Proof.Machine
end

