-- ==== Sys2Proof/Machine/Keystream.lean ====
section
/-! DEFINITION. The commands of the keystream generator (spec/41_keystream.md R130-R145): block generation, counter
advance and output selector, then a body and a meaning per command. -/

namespace Sys2Proof.Machine

/-- `advance()`: the 33-bit counter EXH·2^32 + CTR goes up by 1 (R132). -/
def advance (k : Ksg) : Ksg :=
  if k.ctr = 0xFFFFFFFF then { k with ctr := 0, exh := true } else { k with ctr := k.ctr + 1 }

/-- `GenBlock()`: KS takes the block of KEY, CTR and NONCE, the counter advances, USED is set (R130, R140). -/
def genBlock (s : State) : State :=
  { s with
    dp := Datapath.afterBlock (blockFn s.ksg.key s.ksg.ctr s.ksg.nonce)
    ksg := { advance s.ksg with used := true } }

/-- The output of the block output selector: DIN[i] ^ KS[i] for i < n, DOUT as it was from n on (R133). -/
def selectedBytes (len : BitVec 7) (din ks dout : Vector Byte 64) : Vector Byte 64 :=
  Vector.ofFn fun i : Fin 64 => if i.val < len.toNat then din[i] ^^^ ks[i] else dout[i]

/-- `Select(n)`: DOUT takes the selected bytes, OUTLEN = n, KS is wiped (R133). -/
def selectOutput (len : BitVec 7) (s : State) : State :=
  { s with
    io.dout := selectedBytes len s.io.din s.dp.ks s.io.dout
    io.outlen := len
    dp.ks := zeros 8 64 }

/-- CC_INIT (R134). -/
def bodyCcInit (s : State) : Except ErrCode State :=
  .ok { s with
    ksg :=
      { key := keyOperand s.io.din
        nonce := nonceOperand s.io.din
        ctr := initCtrOperand s.io.din
        exh := false
        keyed := true
        used := false } }

/-- CC_SETCTR (R135, R139). -/
def bodyCcSetctr (s : State) : Except ErrCode State :=
  if s.ksg.keyed = false then .error .orderingViolation
  else if s.ksg.used = true then .error .orderingViolation
  else .ok { s with ksg.ctr := setCtrOperand s.io.din, ksg.exh := false }

/-- CC_BLOCK (R136, R138, R139). -/
def bodyCcBlock (s : State) : Except ErrCode State :=
  if s.ksg.keyed = false then .error .orderingViolation
  else if s.ksg.exh = true then .error .lengthExceeded
  else
    let t := genBlock s
    .ok { t with io.dout := t.dp.ks, io.outlen := 64, dp.ks := zeros 8 64 }

/-- CC_XOR n (R137, R138, R139). A LEN above 64 is no command and ends as IllegalCommand (R201). -/
def bodyCcXor (len : BitVec 7) (s : State) : Except ErrCode State :=
  if legalLen len = false then .error .illegalCommand
  else if s.ksg.keyed = false then .error .orderingViolation
  else if len = 0 then .ok s
  else if s.ksg.exh = true then .error .lengthExceeded
  else .ok (selectOutput len (genBlock s))

/-- CC_CLEAR (R145): the KSG registers and X, SNAP, KS are set to 0. -/
def bodyCcClear (s : State) : Except ErrCode State :=
  .ok { s with
    ksg :=
      { key := zeros 32 8
        nonce := zeros 32 3
        ctr := 0
        exh := false
        keyed := false
        used := false }
    dp.x := zeros 32 16
    dp.snap := zeros 32 16
    dp.ks := zeros 8 64 }

/-- The meaning of CC_INIT (R134). -/
def execCcInit (s : State) : Result := runCommand bodyCcInit s

/-- The meaning of CC_SETCTR (R135). -/
def execCcSetctr (s : State) : Result := runCommand bodyCcSetctr s

/-- The meaning of CC_BLOCK (R136). -/
def execCcBlock (s : State) : Result := runCommand bodyCcBlock s

/-- The meaning of CC_XOR n (R137). -/
def execCcXor (len : BitVec 7) (s : State) : Result := runCommand (bodyCcXor len) s

/-- The meaning of CC_CLEAR (R145). -/
def execCcClear (s : State) : Result := runCommand bodyCcClear s

end Sys2Proof.Machine
end

