-- ==== Sys2Proof/Machine/Poly.lean ====
section
/-! DEFINITION. The Poly1305 limb datapath (spec/42_poly1305.md R161-R168, R185). Sums and products are exact
natural numbers and are narrowed where the spec writes a 32-bit register; R170 is why no register overflows. -/

namespace Sys2Proof.Machine

/-- CLAMP (R161). -/
def clampMask : Nat := 0x0FFFFFFC0FFFFFFC0FFFFFFC0FFFFFFF

/-- The 26-bit digit mask 0x3FFFFFF (R161-R167). -/
def digitMask : Nat := 0x3FFFFFF

/-- r & CLAMP (R161). -/
def clamp (r : Nat) : Nat := r &&& clampMask

/-- The clamped r as five 26-bit limbs: PR[i] = (r >> 26i) & 0x3FFFFFF (R161). -/
def splitR (r : Nat) : Vector Word 5 :=
  Vector.ofFn fun i : Fin 5 => BitVec.ofNat 32 ((clamp r >>> (26 * i.val)) &&& digitMask)

/-- The limbs of PA plus the limbs of a 16-byte block b with high bit hb (R163). -/
def addBlock (pa : Vector Word 5) (b : Vector Byte 16) (hb : Bool) : Vector Nat 5 :=
  let t := leNat b.toList
  #v[pa[0].toNat + (t &&& digitMask),
     pa[1].toNat + ((t >>> 26) &&& digitMask),
     pa[2].toNat + ((t >>> 52) &&& digitMask),
     pa[3].toNat + ((t >>> 78) &&& digitMask),
     pa[4].toNat + ((t >>> 104) ||| (hb.toNat <<< 24))]

/-- The 25 limb products in 5 column sums, folded by 2^130 ≡ 5 (R164). -/
def mulColumns (h : Vector Nat 5) (pr : Vector Word 5) : Vector Nat 5 :=
  let r0 := pr[0].toNat; let r1 := pr[1].toNat; let r2 := pr[2].toNat
  let r3 := pr[3].toNat; let r4 := pr[4].toNat
  let s1 := 5 * r1; let s2 := 5 * r2; let s3 := 5 * r3; let s4 := 5 * r4
  #v[h[0] * r0 + h[1] * s4 + h[2] * s3 + h[3] * s2 + h[4] * s1,
     h[0] * r1 + h[1] * r0 + h[2] * s4 + h[3] * s3 + h[4] * s2,
     h[0] * r2 + h[1] * r1 + h[2] * r0 + h[3] * s4 + h[4] * s3,
     h[0] * r3 + h[1] * r2 + h[2] * r1 + h[3] * r0 + h[4] * s4,
     h[0] * r4 + h[1] * r3 + h[2] * r2 + h[3] * r1 + h[4] * r0]

/-- Carry propagation and the single reduction step after a block (R165). -/
def carryReduce (d : Vector Nat 5) : Vector Word 5 :=
  let d0 := d[0]
  let d1 := d[1] + (d0 >>> 26)
  let d2 := d[2] + (d1 >>> 26)
  let d3 := d[3] + (d2 >>> 26)
  let d4 := d[4] + (d3 >>> 26)
  let a0 := (d0 &&& digitMask) + 5 * (d4 >>> 26)
  #v[BitVec.ofNat 32 (a0 &&& digitMask),
     BitVec.ofNat 32 ((d1 &&& digitMask) + (a0 >>> 26)),
     BitVec.ofNat 32 (d2 &&& digitMask),
     BitVec.ofNat 32 (d3 &&& digitMask),
     BitVec.ofNat 32 (d4 &&& digitMask)]

/-- PolyBlock(PA, PR, b, hb): rules R163-R165 in order (R165). -/
def polyBlock (pa pr : Vector Word 5) (b : Vector Byte 16) (hb : Bool) : Vector Word 5 :=
  carryReduce (mulColumns (addBlock pa b hb) pr)

/-- The final carry pass (R166). -/
def finalCarry (pa : Vector Word 5) : Vector Nat 5 :=
  let h1 := pa[1].toNat
  let h2 := pa[2].toNat + (h1 >>> 26)
  let h3 := pa[3].toNat + (h2 >>> 26)
  let h4 := pa[4].toNat + (h3 >>> 26)
  let h0 := pa[0].toNat + 5 * (h4 >>> 26)
  #v[h0 &&& digitMask,
     (h1 &&& digitMask) + (h0 >>> 26),
     h2 &&& digitMask,
     h3 &&& digitMask,
     h4 &&& digitMask]

/-- The masked select of R167: g where the mask is all ones, h where it is 0. -/
def maskSelect (mask h g : Word) : Word := (h &&& ~~~mask) ||| (g &&& mask)

/-- The constant-time conditional subtraction of p (R167). -/
def condSub (h : Vector Nat 5) : Vector Word 5 :=
  let g0 := h[0] + 5
  let g1 := h[1] + (g0 >>> 26)
  let g2 := h[2] + (g1 >>> 26)
  let g3 := h[3] + (g2 >>> 26)
  let g4 : Word := BitVec.ofNat 32 (h[4] + (g3 >>> 26)) - BitVec.ofNat 32 (2 ^ 26)
  let mask : Word := (g4 >>> 31) - 1
  #v[maskSelect mask (BitVec.ofNat 32 h[0]) (BitVec.ofNat 32 (g0 &&& digitMask)),
     maskSelect mask (BitVec.ofNat 32 h[1]) (BitVec.ofNat 32 (g1 &&& digitMask)),
     maskSelect mask (BitVec.ofNat 32 h[2]) (BitVec.ofNat 32 (g2 &&& digitMask)),
     maskSelect mask (BitVec.ofNat 32 h[3]) (BitVec.ofNat 32 (g3 &&& digitMask)),
     maskSelect mask (BitVec.ofNat 32 h[4]) g4]

/-- The reduced limbs packed into four 32-bit words (R168). -/
def packWords (h : Vector Word 5) : Vector Word 4 :=
  #v[h[0] ||| (h[1] <<< 26),
     (h[1] >>> 6) ||| (h[2] <<< 20),
     (h[2] >>> 12) ||| (h[3] <<< 14),
     (h[3] >>> 18) ||| (h[4] <<< 8)]

/-- The 128-bit sum with s, carries between the words, the last carry discarded (R168, C6). -/
def addS (w ps : Vector Word 4) : Vector Word 4 :=
  let f0 := w[0].toNat + ps[0].toNat
  let f1 := w[1].toNat + ps[1].toNat + (f0 >>> 32)
  let f2 := w[2].toNat + ps[2].toNat + (f1 >>> 32)
  let f3 := w[3].toNat + ps[3].toNat + (f2 >>> 32)
  #v[BitVec.ofNat 32 f0, BitVec.ofNat 32 f1, BitVec.ofNat 32 f2, BitVec.ofNat 32 f3]

/-- PolyFinish(PA, PS): rules R166-R168 in order (R168). -/
def polyFinish (pa : Vector Word 5) (ps : Vector Word 4) : Vector Byte 16 :=
  bytesOfWords (addS (packWords (condSub (finalCarry pa))) ps)

/-- The constant-time compare: all 16 differences are ORed, no early exit (R185). -/
def ctEq (t e : Vector Byte 16) : Bool :=
  (t.toList.zip e.toList).foldl (fun acc d => acc ||| (d.1 ^^^ d.2)) (0 : Byte) == 0

end Sys2Proof.Machine
end

