-- ==== Sys2Proof/Machine/Poly1305.lean ====
section
/-! DEFINITION. The commands of the Poly1305 unit (spec/42_poly1305.md R180-R189): absorbing a byte, the tag, then a
body and a meaning per command. -/

namespace Sys2Proof.Machine

/-- One pass of the P_UPDATE loop (R181): the byte enters PBUF, and a buffer that reaches 16 bytes is processed at
once as a full block (R182). -/
def absorbByte (p : P1305) (b : Byte) : P1305 :=
  let buf := p.pbuf.setIfInBounds p.pcnt.toNat b
  let cnt := p.pcnt + 1
  if cnt = 16 then { p with pa := polyBlock p.pa p.pr buf true, pbuf := zeros 8 16, pcnt := 0 }
  else { p with pbuf := buf, pcnt := cnt }

/-- The P_UPDATE loop over a byte string (R181). -/
def absorb (p : P1305) (bytes : List Byte) : P1305 := bytes.foldl absorbByte p

/-- The tail block: b[PCNT] <- 0x01 over PBUF, whose bytes from PCNT on are 0 (R171, R183). -/
def tailBlock (p : P1305) : Vector Byte 16 := p.pbuf.setIfInBounds p.pcnt.toNat 0x01

/-- The accumulator with the tail block, if there is one (R171, R183). -/
def accWithTail (p : P1305) : Vector Word 5 :=
  if p.pcnt = 0 then p.pa else polyBlock p.pa p.pr (tailBlock p) false

/-- The tag of P_FINAL and P_VERIFY (R183). -/
def computeTag (p : P1305) : Vector Byte 16 := polyFinish (accWithTail p) p.ps

/-- DOUT with the tag in DOUT[0..16) (R183). -/
def tagOutput (tag : Vector Byte 16) (dout : Vector Byte 64) : Vector Byte 64 :=
  Vector.ofFn fun i : Fin 64 => if h : i.val < 16 then tag[i.val] else dout[i]

/-- P_INIT (R180). -/
def bodyPInit (s : State) : Except ErrCode State :=
  .ok { s with
    p :=
      { pr := splitR (rOperand s.io.din)
        ps := sOperand s.io.din
        pa := zeros 32 5
        pbuf := zeros 8 16
        pcnt := 0
        pst := .absorb } }

/-- P_UPDATE n (R181, R188). A LEN above 64 is no command and ends as IllegalCommand (R201). -/
def bodyPUpdate (len : BitVec 7) (s : State) : Except ErrCode State :=
  if legalLen len = false then .error .illegalCommand
  else if s.p.pst ≠ .absorb then .error .orderingViolation
  else .ok { s with p := absorb s.p (messageOperand s.io.din len.toNat) }

/-- P_FINAL (R183, R188, R189). -/
def bodyPFinal (s : State) : Except ErrCode State :=
  if s.p.pst ≠ .absorb then .error .orderingViolation
  else
    .ok { s with
      io.dout := tagOutput (computeTag s.p) s.io.dout
      io.outlen := 16
      p := P1305.wiped .spent }

/-- P_VERIFY (R184, R188, R189): the tag is compared and not output. -/
def bodyPVerify (s : State) : Except ErrCode State :=
  if s.p.pst ≠ .absorb then .error .orderingViolation
  else
    .ok { s with
      io.matched := ctEq (computeTag s.p) (tagOperand s.io.din)
      p := P1305.wiped .spent }

/-- P_CLEAR (R186). -/
def bodyPClear (s : State) : Except ErrCode State := .ok { s with p := P1305.wiped .unkeyed }

/-- The meaning of P_INIT (R180). -/
def execPInit (s : State) : Result := runCommand bodyPInit s

/-- The meaning of P_UPDATE n (R181). -/
def execPUpdate (len : BitVec 7) (s : State) : Result := runCommand (bodyPUpdate len) s

/-- The meaning of P_FINAL (R183). -/
def execPFinal (s : State) : Result := runCommand bodyPFinal s

/-- The meaning of P_VERIFY (R184). -/
def execPVerify (s : State) : Result := runCommand bodyPVerify s

/-- The meaning of P_CLEAR (R186). -/
def execPClear (s : State) : Result := runCommand bodyPClear s

end Sys2Proof.Machine
end

