-- ==== Sys2Proof/Machine/Dispatch.lean ====
section
/-! DEFINITION. The dispatch of the ten commands (spec/30_encoding.md R84): the CORE's step on a decoded command,
frame included (spec/60_exceptions.md R204). -/

namespace Sys2Proof.Machine

def exec (i : Instr) (s : State) : Host.Outcome State Fault Refusal :=
  match i with
  | .ccInit => Sys2Proof.Machine.execCcInit s
  | .ccSetctr => Sys2Proof.Machine.execCcSetctr s
  | .ccBlock => Sys2Proof.Machine.execCcBlock s
  | .ccXor len => Sys2Proof.Machine.execCcXor len s
  | .ccClear => Sys2Proof.Machine.execCcClear s
  | .pInit => Sys2Proof.Machine.execPInit s
  | .pUpdate len => Sys2Proof.Machine.execPUpdate len s
  | .pFinal => Sys2Proof.Machine.execPFinal s
  | .pVerify => Sys2Proof.Machine.execPVerify s
  | .pClear => Sys2Proof.Machine.execPClear s

end Sys2Proof.Machine
end

