-- ==== Sys2Proof/Machine/Flags.lean ====
section
/-! DEFINITION. The flag registers as words (spec/10_state.md R23, R25, R26), the error codes (spec/60_exceptions.md
R200) and the public flags of R243. The CORE has no arithmetic condition codes (R46). -/

namespace Sys2Proof.Machine

/-- The numeric error codes (R200). -/
def ErrCode.code : ErrCode → BitVec 4
  | .ok => 0
  | .lengthExceeded => 1
  | .orderingViolation => 2
  | .authFail => 3
  | .illegalCommand => 4

/-- PST as the field P_FLAGS[1:0] (R26, R43). -/
def Pst.code : Pst → BitVec 2
  | .unkeyed => 0
  | .absorb => 1
  | .spent => 2

/-- The STATUS word (R23): BUSY 0, ERR 7:4, MATCH 8, OUTLEN 22:16; the reserved bits read 0. -/
def statusWord (io : Interface) : Word :=
  BitVec.ofNat 32
    (io.busy.toNat + 2 ^ 4 * io.err.code.toNat + 2 ^ 8 * io.matched.toNat + 2 ^ 16 * io.outlen.toNat)

/-- The CC_FLAGS word (R25): KEYED 0, USED 1, EXH 2; bits 31:3 read 0. -/
def ccFlagsWord (k : Ksg) : Word := BitVec.ofNat 32 (k.keyed.toNat + 2 * k.used.toNat + 4 * k.exh.toNat)

/-- The P_FLAGS word (R26): PST 1:0, PCNT 12:8; the other bits read 0. -/
def pFlagsWord (p : P1305) : Word := BitVec.ofNat 32 (p.pst.code.toNat + 2 ^ 8 * p.pcnt.toNat)

/-- The flags a command's latency may depend on (R243). -/
def publicFlags (s : State) : PublicFlags where
  keyed := s.ksg.keyed
  used := s.ksg.used
  exh := s.ksg.exh
  pst := s.p.pst.code
  pcnt := s.p.pcnt

end Sys2Proof.Machine
end

