-- ==== Sys2Proof/Machine/Window.lean ====
section
/-! DEFINITION. The register window (spec/20_memory.md R50-R60, spec/70_reset_and_hazards.md R240, R241): which
register an offset names, the word a read returns and the effect of a write, with BUSY = 0 and with BUSY = 1. The
window is the CORE's only address space; there is no other memory (R50). -/

namespace Sys2Proof.Machine

/-- The offset a host address has in the window at BASE; `none` outside it, where the access does not reach the
CORE (R50, R58). -/
def windowOffset (addr : Nat) : Option (BitVec 8) :=
  if Config.base ≤ addr ∧ addr < Config.base + 256 then some (BitVec.ofNat 8 (addr - Config.base)) else none

/-- The only access the window serves: 4 bytes at an offset that is a multiple of 4 (R52). -/
def servedAccess (off : BitVec 8) (size : Nat) : Bool := size == 4 && off.toNat % 4 == 0

/-- The register map (R51), for an aligned offset. -/
def regAt (off : BitVec 8) : WinReg :=
  if off.toNat = 0x00 then .cmd
  else if off.toNat = 0x04 then .status
  else if off.toNat = 0x08 then .ccCtr
  else if off.toNat = 0x0C then .ccFlags
  else if off.toNat = 0x10 then .pFlags
  else if off.toNat < 0x40 then .reserved
  else if off.toNat < 0x80 then .din (Fin.ofNat 16 ((off.toNat - 0x40) / 4))
  else if off.toNat < 0xC0 then .dout (Fin.ofNat 16 ((off.toNat - 0x80) / 4))
  else .reserved

/-- The word a served read returns with BUSY = 0 (R54): CMD, DIN and reserved offsets read 0. -/
def readReg (s : State) : WinReg → Word
  | .cmd => 0
  | .status => statusWord s.io
  | .ccCtr => s.ksg.ctr
  | .ccFlags => ccFlagsWord s.ksg
  | .pFlags => pFlagsWord s.p
  | .din _ => 0
  | .dout j => le32 s.io.dout (4 * j.val)
  | .reserved => 0

/-- The word a served read returns with BUSY = 1 (R240): STATUS has bit 0 = 1 and every other bit free; CC_CTR,
CC_FLAGS, P_FLAGS and DOUT are free; the rest read 0. `free` is this read's draw. -/
def readRegBusy (free : Word) : WinReg → Word
  | .cmd => 0
  | .status => free ||| 1
  | .ccCtr => free
  | .ccFlags => free
  | .pFlags => free
  | .din _ => 0
  | .dout _ => free
  | .reserved => 0

/-- The HOST has read a value (R87 `RD off -> name`). -/
def recordRead (v : Word) (s : State) : State := { s with host.seen := v :: s.host.seen }

/-- The next free draw. -/
def freeDraw (s : State) : Word := Config.freeWord s.host.draws

/-- One free draw has been taken. -/
def takeDraw (s : State) : State := { s with host.draws := s.host.draws + 1 }

/-- A served 32-bit read (R54, R240). No read changes a register of the CORE. -/
def servedRead (r : WinReg) (s : State) : State :=
  if s.io.busy then takeDraw (recordRead (readRegBusy (freeDraw s) r) s) else recordRead (readReg s r) s

/-- `MemRead(off, size)`: any access but an aligned 32-bit one is an AccessFault (R52, R54). -/
def memRead (off : BitVec 8) (size : Nat) (s : State) : Result :=
  if servedAccess off size then .next (servedRead (regAt off) s) else .fault .accessFault

/-- DIN with v written to word j: little-endian into DIN[4j..4j+3] (R53). -/
def dinWithWord (din : Vector Byte 64) (j : Fin 16) (v : Word) : Vector Byte 64 :=
  Vector.ofFn fun i : Fin 64 => if i.val / 4 = j.val then byteOf v (i.val % 4) else din[i]

/-- A DIN write (R53, R55). -/
def writeDin (j : Fin 16) (v : Word) (s : State) : State := { s with io.din := dinWithWord s.io.din j v }

/-- A CMD write with BUSY = 0: the first part of the frame (R22, R204). How many host accesses come before the
CORE's step is a free draw over LAT (assumption log 3). -/
def startCommand (w : Word) (s : State) : State :=
  { s with
    io.lcmd := w
    io.busy := true
    host.wait := Config.busyAccesses (Config.lat w (publicFlags s)) s.host.draws
    host.draws := s.host.draws + 1 }

/-- A served 32-bit write (R55, R241): read-only and reserved offsets accept and ignore it; CMD and DIN take it with
BUSY = 0 and are a HostProtocolViolation with BUSY = 1. -/
def servedWrite (r : WinReg) (v : Word) (s : State) : Result :=
  match r with
  | .cmd => if s.io.busy then .fault .hostProtocolViolation else .next (startCommand v s)
  | .din j => if s.io.busy then .fault .hostProtocolViolation else .next (writeDin j v s)
  | .status => .next s
  | .ccCtr => .next s
  | .ccFlags => .next s
  | .pFlags => .next s
  | .dout _ => .next s
  | .reserved => .next s

/-- `MemWrite(off, size, v)`: any access but an aligned 32-bit one is an AccessFault (R52, R55). -/
def memWrite (off : BitVec 8) (size : Nat) (v : Word) (s : State) : Result :=
  if servedAccess off size then servedWrite (regAt off) v s else .fault .accessFault

end Sys2Proof.Machine
end

