-- ==== Sys2Proof/Machine/Agents.lean ====
section
/-! DEFINITION. The two agents (spec/00_scope.md R11): the CORE, which executes the command in LCMD as one step while
BUSY = 1, and the HOST, which makes its bus operations one at a time in program order. Also the host notation of
spec/30_encoding.md R87, R88 as lists of bus operations, and the bytes `RDOUT` gives. -/

namespace Sys2Proof.Machine

/-- The CORE's step on LCMD (R204): an undecodable word completes as IllegalCommand (R83). -/
def coreStep (s : State) : Result :=
  match decode s.io.lcmd with
  | .ok i => exec i s
  | .error _ => illegalCommand s

/-- The reset input (R230, R232): every register takes its reset value, whatever was in flight. The HOST is not
reset. -/
def applyReset (s : State) : State :=
  { io := .reset, ksg := .reset, dp := .reset, p := .reset, host := s.host }

/-- `POLL` (R88): one read of STATUS; while it reads BUSY = 1 the poll stays the HOST's next operation. -/
def pollStatus (s : State) : State :=
  let t := servedRead .status s
  if s.io.busy then { t with host.queue := .poll :: t.host.queue } else t

/-- One operation of the HOST. -/
def serveOp (op : HostOp) (s : State) : Result :=
  match op with
  | .read off size => memRead off size s
  | .write off size v => memWrite off size v s
  | .poll => .next (pollStatus s)
  | .reset => .next (applyReset s)

/-- The HOST's next operation is taken off its queue. -/
def popOp (rest : List HostOp) (s : State) : State :=
  { s with host.queue := rest, host.wait := s.host.wait - 1 }

/-- The HOST's step. With nothing to do the machine idles and holds its state (R217). -/
def hostStep (s : State) : Result :=
  match s.host.queue with
  | [] => .next s
  | op :: rest => serveOp op (popOp rest s)

/-- Which agent moves. The CORE's step is enabled exactly while BUSY = 1 (R44, R204). It is taken when the HOST has
no operation left or the drawn number of operations has been served (assumption log 3), so it is never put off
forever (weak fairness, R44, R244). -/
def coreMoves (s : State) : Bool := s.io.busy && (s.host.queue.isEmpty || s.host.wait == 0)

/-- The bus read at a host address (R50); `none` when the address is outside the window. -/
def readAt (addr size : Nat) : Option HostOp := (windowOffset addr).map fun off => .read off size

/-- The bus write at a host address (R50); `none` when the address is outside the window. -/
def writeAt (addr size : Nat) (v : Word) : Option HostOp := (windowOffset addr).map fun off => .write off size v

/-- `RD off` (R87). -/
def rd (off : BitVec 8) : HostOp := .read off 4

/-- `WR off, v` (R87). -/
def wr (off : BitVec 8) (v : Word) : HostOp := .write off 4 v

/-- A command of the notation: `WR 0x00, word` with the word of R84 (R87). -/
def issue (i : Instr) : HostOp := wr 0x00 (encode i)

/-- The DIN writes of `LDIN` from DIN word j on, the last word filled up with 0x00 bytes (R88). -/
def ldinFrom (j : Nat) : List Byte → List HostOp
  | [] => []
  | [b0] => [wr (BitVec.ofNat 8 (0x40 + 4 * j)) (word32 b0 0 0 0)]
  | [b0, b1] => [wr (BitVec.ofNat 8 (0x40 + 4 * j)) (word32 b0 b1 0 0)]
  | [b0, b1, b2] => [wr (BitVec.ofNat 8 (0x40 + 4 * j)) (word32 b0 b1 b2 0)]
  | b0 :: b1 :: b2 :: b3 :: bs => wr (BitVec.ofNat 8 (0x40 + 4 * j)) (word32 b0 b1 b2 b3) :: ldinFrom (j + 1) bs

/-- `LDIN b0 b1 … b(n−1)`, n ≤ 64 (R88). -/
def ldin (bytes : List Byte) : List HostOp := ldinFrom 0 bytes

/-- `RDOUT n`: the ⌈n/4⌉ DOUT reads (R88). -/
def rdout (n : Nat) : List HostOp := (List.range ((n + 3) / 4)).map fun j => rd (BitVec.ofNat 8 (0x80 + 4 * j))

/-- dout_0, dout_1, … of `RDOUT n`, in the state its reads leave: the last ⌈n/4⌉ values read, oldest first (R88). -/
def rdoutWords (n : Nat) (s : State) : List Word := (s.host.seen.take ((n + 3) / 4)).reverse

/-- The result bytes of `RDOUT n`, in the state its reads leave: the little-endian bytes of dout_0, dout_1, …,
truncated to n (R88). -/
def rdoutResult (n : Nat) (s : State) : List Byte := ((rdoutWords n s).flatMap bytesOfWord).take n

/-- `XCMD c, bytes`: LDIN, the command, POLL (R88). -/
def xcmd (i : Instr) (bytes : List Byte) : List HostOp := ldin bytes ++ [issue i, .poll]

/-- The command word of an opcode-table row as LCMD holds it: the low `nbits` bits of w, every bit above them 0. -/
def fetchWord (nbits w : Nat) : Word := BitVec.ofNat 32 (w % 2 ^ nbits)

/-- A command word is latched and the CORE's step is due: what a CMD write leaves (R22, R204) with no host operation
to be served first. -/
def latchCommand (w : Word) (s : State) : State :=
  { s with io.lcmd := w, io.busy := true, host.wait := 0 }

end Sys2Proof.Machine
end

