-- ==== Sys2Proof/Machine/Step.lean ====
section
/-! DEFINITION. One step of the machine: the CORE's step when it is due, else one operation of the HOST
(spec/00_scope.md R10, R11; spec/60_exceptions.md R204). -/

namespace Sys2Proof.Machine

/-- One step. -/
def step (s : State) : Host.Outcome State Fault Refusal :=
  if coreMoves s then coreStep s else hostStep s

/-- s with a command word stored where the CORE takes its next command from: LCMD, with BUSY = 1, as the CMD write of
a host leaves it (R22, R64), and the CORE's step due (assumption log 5). -/
def State.withFetchWord (s : State) (nbits w : Nat) : State := latchCommand (fetchWord nbits w) s

end Sys2Proof.Machine
end

