-- ==== Sys2Proof/Machine/PolyInteger.lean ====
section
/-! DEFINITION. Poly1305 as integers (spec/42_poly1305.md R160), and the integer a limb array stands for (R41). The
machine computes with limbs; claims compare the two (R169). -/

namespace Sys2Proof.Machine

/-- p = 2^130 − 5 (R160). -/
def polyP : Nat := 2 ^ 130 - 5

/-- val of a limb array: Σ v[i]·2^(26i) (R41). -/
def limbVal (v : Vector Word 5) : Nat :=
  v[0].toNat + v[1].toNat * 2 ^ 26 + v[2].toNat * 2 ^ 52 + v[3].toNat * 2 ^ 78 + v[4].toNat * 2 ^ 104

/-- s = Σ PS[i]·2^(32i) (R162). -/
def sVal (ps : Vector Word 4) : Nat :=
  ps[0].toNat + ps[1].toNat * 2 ^ 32 + ps[2].toNat * 2 ^ 64 + ps[3].toNat * 2 ^ 96

/-- A message cut into chunks of 16 bytes, the last of 1 to 16 (R160); `fuel` is at least its length. -/
def chunks16 : Nat → List Byte → List (List Byte)
  | 0, _ => []
  | fuel + 1, m => if m.isEmpty then [] else m.take 16 :: chunks16 fuel (m.drop 16)

/-- n_k = LE(chunk ‖ 0x01) (R160). -/
def chunkInt (c : List Byte) : Nat := leNat c + 2 ^ (8 * c.length)

/-- a_K: the accumulator after every chunk of the message, mod p (R160). -/
def polyAcc (r : Nat) (m : List Byte) : Nat :=
  (chunks16 m.length m).foldl (fun a c => ((a + chunkInt c) * r) % polyP) 0

/-- The tag of a message under a 32-byte key, as an integer: (a_K + s) mod 2^128 (R160). -/
def polyTag (key m : List Byte) : Nat :=
  (polyAcc (clamp (leNat (key.take 16))) m + leNat ((key.drop 16).take 16)) % 2 ^ 128

end Sys2Proof.Machine
end

