-- ==== Sys2Proof/Safety.lean ====
section
/-! DEFINITION. The terms claims use: the invariant of the registers, what a polite host program is, and what a
host can tell two states apart by. -/

namespace Sys2Proof.Machine

/-- The KSG's invariant (spec/10_state.md R32-R34; spec/41_keystream.md R138, R145): EXH = 1 only after the last
block, with CTR = 0; a used unit is keyed; an unkeyed unit holds nothing. -/
structure KsgInv (k : Ksg) : Prop where
  exh_ctr : k.exh = true → k.ctr = 0
  exh_used : k.exh = true → k.used = true
  used_keyed : k.used = true → k.keyed = true
  unkeyed_clear : k.keyed = false → k.key = zeros 32 8 ∧ k.nonce = zeros 32 3 ∧ k.ctr = 0

/-- The datapath between steps (R35-R38): X, SNAP and KS are 0 and the sequencer is in IDLE. RC, H and QI are at
their reset values (assumption log 6). -/
structure DatapathInv (d : Datapath) : Prop where
  x_zero : d.x = zeros 32 16
  snap_zero : d.snap = zeros 32 16
  ks_zero : d.ks = zeros 8 64
  idle : d.seq = .idle
  at_start : d.rc = 0 ∧ d.half = .column ∧ d.qi = 0

/-- PR within the maxima of R161. -/
structure RBounds (pr : Vector Word 5) : Prop where
  r0 : pr[0].toNat ≤ 0x3FFFFFF
  r1 : pr[1].toNat ≤ 0x3FFFF03
  r2 : pr[2].toNat ≤ 0x3FFC0FF
  r3 : pr[3].toNat ≤ 0x3F03FFF
  r4 : pr[4].toNat ≤ 0x00FFFFF

/-- PA within the bounds of R41 and R170. -/
structure ABounds (pa : Vector Word 5) : Prop where
  a0 : pa[0].toNat < 2 ^ 26
  a1 : pa[1].toNat ≤ 2 ^ 26 + 0x25
  a2 : pa[2].toNat < 2 ^ 26
  a3 : pa[3].toNat < 2 ^ 26
  a4 : pa[4].toNat < 2 ^ 26

/-- The P1305 unit's invariant (R39, R41, R42, R189): the limb bounds, PCNT ≤ 15 with PBUF 0 from PCNT on, and
nothing held outside ABSORB. -/
structure P1305Inv (p : P1305) : Prop where
  r_bounds : RBounds p.pr
  a_bounds : ABounds p.pa
  pcnt_le : p.pcnt.toNat ≤ 15
  tail_zero : ∀ i : Fin 16, p.pcnt.toNat ≤ i.val → p.pbuf[i] = 0
  held_only_absorbing : p.pst ≠ .absorb → p = P1305.wiped p.pst

/-- The interface registers' invariant (R23, R28, R203, R210): OUTLEN ≤ 64 with DOUT 0 from OUTLEN on; ERR is never
AuthFail; an error leaves no result; MATCH = 1 only after a P_VERIFY without error. -/
structure InterfaceInv (io : Interface) : Prop where
  outlen_le : io.outlen.toNat ≤ 64
  dout_tail : ∀ i : Fin 64, io.outlen.toNat ≤ i.val → io.dout[i] = 0
  no_authFail : io.err ≠ .authFail
  error_no_result : io.err ≠ .ok → io.outlen = 0 ∧ io.matched = false
  match_no_output : io.matched = true → io.outlen = 0

/-- The invariant of the registers, which every step keeps. -/
structure Inv (s : State) : Prop where
  io : InterfaceInv s.io
  ksg : KsgInv s.ksg
  dp : DatapathInv s.dp
  p : P1305Inv s.p

/-- A host program the spec allows (R52, R88, R241): aligned 32-bit accesses only, and a POLL (or a reset) between a
CMD write and the next CMD or DIN write. `busy` says whether a command may be in flight. -/
def polite : Bool → List HostOp → Bool
  | _, [] => true
  | busy, .read off size :: ops => servedAccess off size && polite busy ops
  | busy, .write off size _ :: ops =>
    servedAccess off size &&
      match regAt off with
      | .cmd => !busy && polite true ops
      | .din _ => !busy && polite busy ops
      | .status => polite busy ops
      | .ccCtr => polite busy ops
      | .ccFlags => polite busy ops
      | .pFlags => polite busy ops
      | .dout _ => polite busy ops
      | .reserved => polite busy ops
  | _, .poll :: ops => polite false ops
  | _, .reset :: ops => polite false ops

/-- A machine whose host keeps to the rules from here on. -/
def PoliteHost (s : State) : Prop := polite s.io.busy s.host.queue = true

/-- A safe step: the machine goes on. -/
def SafeStep (s : State) : Prop := ∃ t, step s = .next t

/-- Two states with the same public registers and the same host side (R45). They may differ in KEY, NONCE, X, SNAP,
KS, PR, PS, PA, PBUF and DIN. DOUT and MATCH, which the host may read, are equal. -/
structure PublicEq (s t : State) : Prop where
  lcmd : s.io.lcmd = t.io.lcmd
  busy : s.io.busy = t.io.busy
  err : s.io.err = t.io.err
  matched : s.io.matched = t.io.matched
  outlen : s.io.outlen = t.io.outlen
  dout : s.io.dout = t.io.dout
  ctr : s.ksg.ctr = t.ksg.ctr
  exh : s.ksg.exh = t.ksg.exh
  keyed : s.ksg.keyed = t.ksg.keyed
  used : s.ksg.used = t.ksg.used
  pst : s.p.pst = t.p.pst
  pcnt : s.p.pcnt = t.p.pcnt
  host : s.host = t.host

/-- Two outcomes a host cannot tell apart: the same stop, or next states with the same public registers. -/
def PublicOutcome : Result → Result → Prop
  | .next s, .next t => PublicEq s t
  | .fault e, .fault f => e = f
  | .refused a, .refused b => a = b
  | _, _ => False

/-- What the frame leaves of the interface after a command with outcome e, whatever the command (R204): BUSY 0, ERR
the code, DIN cleared; LCMD as it was, which after a command without error is an inference (assumption log 9; after an
error R203 says it). The HOST is not touched. -/
structure FrameDone (e : ErrCode) (s t : State) : Prop where
  lcmd : t.io.lcmd = s.io.lcmd
  busy : t.io.busy = false
  err : t.io.err = e
  din : t.io.din = zeros 8 64
  host : t.host = s.host

/-- A completed command that has no output (R204): DOUT all 0, OUTLEN = 0, MATCH = 0. -/
structure NoOutput (t : State) : Prop where
  dout : t.io.dout = zeros 8 64
  outlen : t.io.outlen = 0
  matched : t.io.matched = false

/-- No unit register has changed (R203). -/
structure UnitsKept (s t : State) : Prop where
  ksg : t.ksg = s.ksg
  dp : t.dp = s.dp
  p : t.p = s.p

/-- The command was turned away with code e: the frame's writes and nothing else (R203). -/
structure TurnedAway (e : ErrCode) (s t : State) : Prop where
  frame : FrameDone e s t
  output : NoOutput t
  units : UnitsKept s t

/-- The 33-bit block counter C33 = EXH·2^32 + CTR (R32, R131). -/
def c33 (k : Ksg) : Nat := k.exh.toNat * 2 ^ 32 + k.ctr.toNat

/-- How many bytes of DIN, from DIN[0] on, a command reads (R82). -/
def operandBytes : Instr → Nat
  | .ccInit => 48
  | .ccSetctr => 4
  | .ccBlock => 0
  | .ccXor len => len.toNat
  | .ccClear => 0
  | .pInit => 32
  | .pUpdate len => len.toNat
  | .pFinal => 0
  | .pVerify => 16
  | .pClear => 0

/-- A 16-byte block holding a byte string from its first byte on, the rest 0. -/
def toBlock (bytes : List Byte) : Vector Byte 16 := Vector.ofFn fun i : Fin 16 => bytes[i.val]?.getD 0

/-- The first q full blocks of a byte string, multiplied into the accumulator in order (R160, R165). -/
def polyBlocks (pa pr : Vector Word 5) (bytes : List Byte) (q : Nat) : Vector Word 5 :=
  (List.range q).foldl (fun a k => polyBlock a pr (toBlock ((bytes.drop (16 * k)).take 16)) true) pa

/-- One chunk a host hands over: what it writes to DIN and the LEN of its command. -/
abbrev Chunk := Vector Byte 64 × BitVec 7

/-- The bytes of a chunk: DIN[0..LEN). -/
def chunkBytes (c : Chunk) : List Byte := slice c.1 0 c.2.toNat

/-- The message a list of chunks makes. -/
def messageOf (cs : List Chunk) : List Byte := cs.flatMap chunkBytes

/-- The machine with DIN holding `din`. -/
def withDin (din : Vector Byte 64) (s : State) : State := { s with io.din := din }

/-- P_UPDATE of each chunk in turn (R187). -/
def updateAll : State → List Chunk → Result
  | s, [] => .next s
  | s, c :: cs =>
    match exec (.pUpdate c.2) (withDin c.1 s) with
    | .next t => updateAll t cs
    | r => r

/-- CC_XOR of each chunk in turn (R146), collecting the output bytes DOUT[0..OUTLEN) of each. -/
def xorAll : State → List Chunk → Option (State × List (List Byte))
  | s, [] => some (s, [])
  | s, c :: cs =>
    match exec (.ccXor c.2) (withDin c.1 s) with
    | .next t =>
      match xorAll t cs with
      | some (u, outs) => some (u, slice t.io.dout 0 t.io.outlen.toNat :: outs)
      | none => none
    | _ => none

/-- The prefix of a keystream block XORed into a byte string (R133). -/
def xorPrefix (bytes : List Byte) (block : Vector Byte 64) : List Byte := List.zipWith (· ^^^ ·) bytes block.toList

/-- The HOST's next event is a reset, and it is the HOST that moves. -/
def resetNext (s : State) : Prop := coreMoves s = false ∧ ∃ rest, s.host.queue = .reset :: rest

/-- The CORE moves and executes command i. -/
def executes (i : Instr) (s : State) : Prop := coreMoves s = true ∧ decode s.io.lcmd = .ok i

end Sys2Proof.Machine
end

