-- ==== Sys2Proof/Certificates/Slice0/Obligations.lean ====
section
/-! DEFINITION. The statements about the model, each from rules of spec/: encodings, the block function, the ten
commands, errors, the register window, the step and the whole machine. -/

open Sys2Proof Sys2Proof.Machine

/-! ## Encoding -/

/-- Words of the opcode map (R84) and illegal words (R85) decode as spec/95_test_vectors.md V-DEC lists them. -/
def Obligations.CommandWordsDecode : Prop :=
  decode 0x00000001 = .ok .ccInit ∧ decode 0x00000002 = .ok .ccSetctr ∧ decode 0x00000003 = .ok .ccBlock ∧
  decode 0x00000004 = .ok (.ccXor 0) ∧ decode 0x00004004 = .ok (.ccXor 64) ∧ decode 0x00000005 = .ok .ccClear ∧
  decode 0x00000011 = .ok .pInit ∧ decode 0x00000012 = .ok (.pUpdate 0) ∧ decode 0x00002212 = .ok (.pUpdate 34) ∧
  decode 0x00000013 = .ok .pFinal ∧ decode 0x00000014 = .ok .pVerify ∧ decode 0x00000015 = .ok .pClear ∧
  decode 0x00000000 = .error .unknownOpcode ∧ decode 0x00000101 = .error .illegalLen ∧
  decode 0x00004104 = .error .illegalLen ∧ decode 0x00008004 = .error .reservedBitSet ∧
  decode 0x80000001 = .error .reservedBitSet ∧ decode 0x000000ff = .error .unknownOpcode

/-- Decoding and encoding agree on every word and every command: a word decodes to a command exactly when the
command is well-formed and the word is its encoding (R80-R86). So no two commands share a word and no word has two
meanings. -/
def Obligations.DecodeInvertsEncode : Prop :=
  ∀ (w : Word) (i : Instr), decode w = .ok i ↔ i.wellFormed = true ∧ encode i = w

/-- The CORE's step on LCMD completes with IllegalCommand exactly on the words R85 lists, bit fields written as
arithmetic on the word. -/
def Obligations.IllegalWordsComplete : Prop :=
  ∀ s : State,
    let w := s.io.lcmd.toNat
    let op := w % 2 ^ 8
    let len := w / 2 ^ 8 % 2 ^ 7
    let rsv := w / 2 ^ 15
    (op = 0x00 ∨ (0x06 ≤ op ∧ op ≤ 0x10) ∨ 0x16 ≤ op ∨ rsv ≠ 0 ∨
      (len ≠ 0 ∧ op ≠ 0x04 ∧ op ≠ 0x12) ∨ (65 ≤ len ∧ (op = 0x04 ∨ op = 0x12))) ↔
    ∃ t, coreStep s = .next t ∧ t.io.err = .illegalCommand

/-! ## The block function -/

/-- The adder (R101) and the rotator (R102): their values as numbers, the corner cases and the examples. -/
def Obligations.AdderAndRotator : Prop :=
  (∀ x y : Word, (add32 x y).toNat = (x.toNat + y.toNat) % 2 ^ 32) ∧
  add32 0xFFFFFFFF 1 = 0 ∧ add32 0x80000000 0x80000000 = 0 ∧ add32 0x11111111 0x01020304 = 0x12131415 ∧
  (∀ (x : Word) (n : Nat), n ∈ [16, 12, 8, 7] →
    (rotl x n).toNat = ((x.toNat <<< n) ||| (x.toNat >>> (32 - n))) % 2 ^ 32 ∧
    rotl 0 n = 0 ∧ rotl 0xFFFFFFFF n = 0xFFFFFFFF) ∧
  rotl 0x80000001 16 = 0x00018000 ∧ rotl 0x80000001 12 = 0x00001800 ∧
  rotl 0x80000001 8 = 0x00000180 ∧ rotl 0x80000001 7 = 0x000000C0

/-- A quarter round on a lane group writes the four lanes of the group and leaves every other lane (R105); the column
and diagonal rounds apply it to the listed groups in the listed order; the rule's example. -/
def Obligations.QuarterRoundOnLanes : Prop :=
  (∀ (x : Vector Word 16) (i j k l : Fin 16), [i, j, k, l].Nodup →
    let q := quarterRound x[i] x[j] x[k] x[l]
    let y := qrOn x (i, j, k, l)
    y[i] = q.1 ∧ y[j] = q.2.1 ∧ y[k] = q.2.2.1 ∧ y[l] = q.2.2.2 ∧
    ∀ m : Fin 16, m ∉ [i, j, k, l] → y[m] = x[m]) ∧
  (∀ x, columnRound x = qrOn (qrOn (qrOn (qrOn x (0, 4, 8, 12)) (1, 5, 9, 13)) (2, 6, 10, 14)) (3, 7, 11, 15)) ∧
  (∀ x, diagonalRound x = qrOn (qrOn (qrOn (qrOn x (0, 5, 10, 15)) (1, 6, 11, 12)) (2, 7, 8, 13)) (3, 4, 9, 14)) ∧
  (∀ x : Vector Word 16,
    x[2] = 0x516461B1 → x[7] = 0x2A5F714C → x[8] = 0x53372767 → x[13] = 0x3D631689 →
    let y := qrOn x (2, 7, 8, 13)
    y[2] = 0xBDB886DC ∧ y[7] = 0xCFACAFD2 ∧ y[8] = 0xE46BEA80 ∧ y[13] = 0xCCC07C79)

/-- The four groups of a half round are disjoint and cover the 16 lanes, so their order does not change the result
and they may run in parallel (R115). -/
def Obligations.HalfRoundOrderFree : Prop :=
  ∀ h : Half,
    (∀ m : Fin 16, ∃! g, g ∈ halfGroups h ∧ m ∈ [g.1, g.2.1, g.2.2.1, g.2.2.2]) ∧
    ∀ (x : Vector Word 16) (gs : List LaneGroup), gs.Perm (halfGroups h) →
      gs.foldl qrOn x = (halfGroups h).foldl qrOn x ∧ parallelQr gs x = (halfGroups h).foldl qrOn x

/-- The bytes of a block: lane i of the state after ten double rounds plus lane i of the initial state, byte k of the
sum, at 4i + k (R104, R107-R111). -/
def Obligations.BlockBytes : Prop :=
  ∀ (key : Vector Word 8) (c : Word) (nonce : Vector Word 3) (i : Fin 16) (k : Fin 4),
    let s : Vector Word 16 := #v[0x61707865, 0x3320646E, 0x79622D32, 0x6B206574, key[0], key[1], key[2], key[3],
      key[4], key[5], key[6], key[7], c, nonce[0], nonce[1], nonce[2]]
    (blockFn key c nonce)[4 * i.val + k.val]'(by omega) =
      byteOf (add32 (doubleRounds 10 s)[i] s[i]) k.val

/-- For every number of quarter-round units the round sequencer, started from any datapath, comes back to IDLE with
KS the block of KEY, CTR and NONCE and X and SNAP 0 (R111-R113, R116, R117). That RC returns to 0 is the model's
choice (assumption log 6), and so are the sequencer as a machine of its own, its number of moves and its passes for 2
and 4 units (assumption log 12). -/
def Obligations.SequencerComputesBlock : Prop :=
  ∀ (u : QrUnits) (k : Ksg) (d : Datapath),
    seqRun u k (seqMoves u) (seqStart d) = Datapath.afterBlock (blockFn k.key k.ctr k.nonce)

/-! ## The keystream generator's commands -/

/-- CC_INIT (R134) is legal in every state and loads key, nonce and counter; a start counter of 0xFFFFFFFF allows
exactly one block. That LCMD keeps its word is the model's inference (assumption log 9). -/
def Obligations.CcInitLoadsState : Prop :=
  encode .ccInit = 0x00000001 ∧
  ∀ s : State, ∃ t, exec .ccInit s = .next t ∧ FrameDone .ok s t ∧ NoOutput t ∧ t.p = s.p ∧ t.dp = s.dp ∧
    (∀ i : Fin 8, t.ksg.key[i] = le32 s.io.din (4 * i.val)) ∧
    (∀ j : Fin 3, t.ksg.nonce[j] = le32 s.io.din (32 + 4 * j.val)) ∧
    t.ksg.ctr = le32 s.io.din 44 ∧ t.ksg.exh = false ∧ t.ksg.used = false ∧ t.ksg.keyed = true ∧
    (le32 s.io.din 44 = 0xFFFFFFFF → ∃ u v, exec .ccBlock t = .next u ∧ u.io.err = .ok ∧
      exec .ccBlock u = .next v ∧ v.io.err = .lengthExceeded)

/-- CC_SETCTR (R135): before the first block of a keyed unit it sets the counter, any number of times, and a CC_XOR 0
in between changes nothing of that; otherwise OrderingViolation. That LCMD keeps its word is the model's inference
(assumption log 9). -/
def Obligations.CcSetctrSetsCounter : Prop :=
  encode .ccSetctr = 0x00000002 ∧
  (∀ s : State, s.ksg.keyed = true → s.ksg.used = false →
    ∃ t, exec .ccSetctr s = .next t ∧ FrameDone .ok s t ∧ NoOutput t ∧ t.p = s.p ∧ t.dp = s.dp ∧
      t.ksg.ctr = le32 s.io.din 0 ∧ t.ksg.exh = false ∧ t.ksg.keyed = true ∧ t.ksg.used = false ∧
      t.ksg.key = s.ksg.key ∧ t.ksg.nonce = s.ksg.nonce ∧
      ∃ u, exec (.ccXor 0) t = .next u ∧ u.ksg = t.ksg) ∧
  (∀ s : State, s.ksg.keyed = false ∨ s.ksg.used = true →
    ∃ t, exec .ccSetctr s = .next t ∧ TurnedAway .orderingViolation s t)

/-- CC_BLOCK (R136): one raw keystream block, the counter one higher; its two errors; and, with DIN all zero, the
same next state as CC_XOR 64. That LCMD keeps its word is the model's inference (assumption log 9). -/
def Obligations.CcBlockOutputsBlock : Prop :=
  encode .ccBlock = 0x00000003 ∧
  (∀ s : State, s.ksg.keyed = true → s.ksg.exh = false →
    ∃ t, exec .ccBlock s = .next t ∧ FrameDone .ok s t ∧ t.p = s.p ∧
      t.io.dout = blockFn s.ksg.key s.ksg.ctr s.ksg.nonce ∧ t.io.outlen = 64 ∧ t.io.matched = false ∧
      c33 t.ksg = c33 s.ksg + 1 ∧ t.ksg.used = true ∧ t.ksg.keyed = true ∧
      t.ksg.key = s.ksg.key ∧ t.ksg.nonce = s.ksg.nonce ∧
      t.dp.x = zeros 32 16 ∧ t.dp.snap = zeros 32 16 ∧ t.dp.ks = zeros 8 64 ∧ t.dp.seq = .idle) ∧
  (∀ s : State, s.ksg.keyed = false → ∃ t, exec .ccBlock s = .next t ∧ TurnedAway .orderingViolation s t) ∧
  (∀ s : State, s.ksg.keyed = true → s.ksg.exh = true →
    ∃ t, exec .ccBlock s = .next t ∧ TurnedAway .lengthExceeded s t) ∧
  (∀ s : State, s.io.din = zeros 8 64 → exec .ccBlock s = exec (.ccXor 64) s)

/-- CC_XOR n (R137, R133): the first n bytes of DIN XORed with the first n bytes of one block, the rest of DOUT 0,
the counter one higher; n = 0 changes no unit even when EXH = 1; its errors. That LCMD keeps its word is the model's
inference (assumption log 9). -/
def Obligations.CcXorOutputsChunk : Prop :=
  (∀ len : BitVec 7, (encode (.ccXor len)).toNat = 0x04 + 2 ^ 8 * len.toNat) ∧
  (∀ (len : BitVec 7) (s : State), 1 ≤ len.toNat → len.toNat ≤ 64 → s.ksg.keyed = true → s.ksg.exh = false →
    ∃ t, exec (.ccXor len) s = .next t ∧ FrameDone .ok s t ∧ t.p = s.p ∧
      (∀ i : Fin 64, t.io.dout[i] =
        if i.val < len.toNat then s.io.din[i] ^^^ (blockFn s.ksg.key s.ksg.ctr s.ksg.nonce)[i] else 0) ∧
      t.io.outlen = len ∧ t.io.matched = false ∧
      c33 t.ksg = c33 s.ksg + 1 ∧ t.ksg.used = true ∧ t.ksg.keyed = true ∧
      t.ksg.key = s.ksg.key ∧ t.ksg.nonce = s.ksg.nonce ∧
      t.dp.x = zeros 32 16 ∧ t.dp.snap = zeros 32 16 ∧ t.dp.ks = zeros 8 64 ∧ t.dp.seq = .idle) ∧
  (∀ s : State, s.ksg.keyed = true →
    ∃ t, exec (.ccXor 0) s = .next t ∧ FrameDone .ok s t ∧ NoOutput t ∧ UnitsKept s t) ∧
  (∀ (len : BitVec 7) (s : State), len.toNat ≤ 64 → s.ksg.keyed = false →
    ∃ t, exec (.ccXor len) s = .next t ∧ TurnedAway .orderingViolation s t) ∧
  (∀ (len : BitVec 7) (s : State), 1 ≤ len.toNat → len.toNat ≤ 64 → s.ksg.keyed = true → s.ksg.exh = true →
    ∃ t, exec (.ccXor len) s = .next t ∧ TurnedAway .lengthExceeded s t)

/-- CC_CLEAR (R145): every KSG register and X, SNAP and KS are 0; it is legal in every state, idempotent, and does not
touch the P1305 unit; a CC_BLOCK after it is an OrderingViolation. That SEQ, RC, H and QI (assumption log 14) and LCMD
(assumption log 9) stay as they were is the model's inference. -/
def Obligations.CcClearWipes : Prop :=
  encode .ccClear = 0x00000005 ∧
  ∀ s : State, ∃ t, exec .ccClear s = .next t ∧ FrameDone .ok s t ∧ NoOutput t ∧ t.p = s.p ∧
    t.ksg = Ksg.reset ∧ t.dp.x = zeros 32 16 ∧ t.dp.snap = zeros 32 16 ∧ t.dp.ks = zeros 8 64 ∧
    t.dp.seq = s.dp.seq ∧ t.dp.rc = s.dp.rc ∧ t.dp.half = s.dp.half ∧ t.dp.qi = s.dp.qi ∧
    (∃ u, exec .ccClear t = .next u ∧ UnitsKept t u) ∧
    ∃ v, exec .ccBlock t = .next v ∧ v.io.err = .orderingViolation

/-- The block counter advances by one as a 33-bit number, once per generated block, whatever number of the block's
bytes is used (R132). -/
def Obligations.CounterAdvances : Prop :=
  (∀ k : Ksg, k.exh = false →
    c33 (advance k) = c33 k + 1 ∧
    (k.ctr = 0xFFFFFFFF → (advance k).ctr = 0 ∧ (advance k).exh = true) ∧
    (k.ctr ≠ 0xFFFFFFFF → (advance k).ctr = k.ctr + 1 ∧ (advance k).exh = false)) ∧
  (∀ s : State, s.ksg.keyed = true → s.ksg.exh = false →
    (∃ t, exec .ccBlock s = .next t ∧ t.ksg = { advance s.ksg with used := true }) ∧
    ∀ len : BitVec 7, 1 ≤ len.toNat → len.toNat ≤ 64 →
      ∃ t, exec (.ccXor len) s = .next t ∧ t.ksg = { advance s.ksg with used := true })

/-- The counter never wraps (R131, R132): on a unit that meets its invariant every command but CC_INIT, CC_SETCTR and
CC_CLEAR leaves the 33-bit counter or raises it by one, and never above 2^32. -/
def Obligations.CounterNeverWraps : Prop :=
  ∀ (i : Instr) (s t : State), KsgInv s.ksg → exec i s = .next t →
    i ≠ .ccInit → i ≠ .ccSetctr → i ≠ .ccClear →
    (c33 t.ksg = c33 s.ksg ∨ (c33 t.ksg = c33 s.ksg + 1 ∧ c33 s.ksg < 2 ^ 32)) ∧ c33 t.ksg ≤ 2 ^ 32

/-- While EXH = 1 a command that needs a block ends with LengthExceeded and changes nothing, and only CC_INIT,
CC_SETCTR with USED = 0, CC_CLEAR and reset leave EXH = 1 (R138). -/
def Obligations.ExhaustedUnitRefuses : Prop :=
  (∀ s : State, s.ksg.keyed = true → s.ksg.exh = true →
    (∃ t, exec .ccBlock s = .next t ∧ TurnedAway .lengthExceeded s t) ∧
    (∀ len : BitVec 7, 1 ≤ len.toNat → len.toNat ≤ 64 →
      ∃ t, exec (.ccXor len) s = .next t ∧ TurnedAway .lengthExceeded s t)) ∧
  (∀ s t : State, step s = .next t → s.ksg.exh = true → t.ksg.exh = false →
    executes .ccInit s ∨ (executes .ccSetctr s ∧ s.ksg.used = false) ∨ executes .ccClear s ∨ resetNext s)

/-- A stream of CC_XOR commands (R146): chunk k is XORed with the prefix of the block at counter c + k, and the
counter ends one higher per chunk, as long as the capacity 2^32 − C33 is kept (R131, R149). -/
def Obligations.StreamOfChunks : Prop :=
  ∀ (s : State) (cs : List Chunk), s.ksg.keyed = true →
    (∀ c ∈ cs, 1 ≤ c.2.toNat ∧ c.2.toNat ≤ 64) → c33 s.ksg + cs.length ≤ 2 ^ 32 →
    ∃ t outs, xorAll s cs = some (t, outs) ∧
      c33 t.ksg = c33 s.ksg + cs.length ∧ t.ksg.key = s.ksg.key ∧ t.ksg.nonce = s.ksg.nonce ∧ t.p = s.p ∧
      outs = cs.mapIdx fun k c =>
        xorPrefix (chunkBytes c) (blockFn s.ksg.key (s.ksg.ctr + BitVec.ofNat 32 k) s.ksg.nonce)

/-- Involution (R147): a stream over the output of a stream, from the same key, nonce and counter, gives the input
back. -/
def Obligations.StreamInvolution : Prop :=
  ∀ (s s' : State) (cs cs' : List Chunk), s.ksg.keyed = true → s'.ksg = s.ksg →
    (∀ c ∈ cs, 1 ≤ c.2.toNat ∧ c.2.toNat ≤ 64) → c33 s.ksg + cs.length ≤ 2 ^ 32 →
    ∃ t outs, xorAll s cs = some (t, outs) ∧
      (cs'.map chunkBytes = outs → (∀ c ∈ cs', 1 ≤ c.2.toNat ∧ c.2.toNat ≤ 64) →
        ∃ t', xorAll s' cs' = some (t', cs.map chunkBytes))

/-! ## The Poly1305 unit's commands -/

/-- P_INIT (R180, R161, R162) is legal in every state: r is clamped and split, s split, the accumulator and the
buffer cleared. That LCMD keeps its word is the model's inference (assumption log 9). -/
def Obligations.PInitKeysUnit : Prop :=
  encode .pInit = 0x00000011 ∧
  ∀ s : State, ∃ t, exec .pInit s = .next t ∧ FrameDone .ok s t ∧ NoOutput t ∧ t.ksg = s.ksg ∧ t.dp = s.dp ∧
    (∀ i : Fin 5, t.p.pr[i].toNat =
      ((leNat (slice s.io.din 0 16) &&& 0x0FFFFFFC0FFFFFFC0FFFFFFC0FFFFFFF) >>> (26 * i.val)) &&& 0x3FFFFFF) ∧
    (∀ i : Fin 4, t.p.ps[i] = le32 s.io.din (16 + 4 * i.val)) ∧ sVal t.p.ps = leNat (slice s.io.din 16 32) ∧
    t.p.pa = zeros 32 5 ∧ t.p.pbuf = zeros 8 16 ∧ t.p.pcnt = 0 ∧ t.p.pst = .absorb

/-- P_UPDATE n (R181, R182) on a unit that meets its invariant: the buffered bytes and DIN[0..n) make one byte
string, its full 16-byte blocks are processed in order and the rest stays in the buffer. Outside ABSORB it is an
OrderingViolation. That LCMD keeps its word is the model's inference (assumption log 9). -/
def Obligations.PUpdateAbsorbs : Prop :=
  (∀ len : BitVec 7, (encode (.pUpdate len)).toNat = 0x12 + 2 ^ 8 * len.toNat) ∧
  (∀ (len : BitVec 7) (s : State), len.toNat ≤ 64 → s.p.pst = .absorb → P1305Inv s.p →
    ∃ t, exec (.pUpdate len) s = .next t ∧ FrameDone .ok s t ∧ NoOutput t ∧ t.ksg = s.ksg ∧ t.dp = s.dp ∧
      t.p.pr = s.p.pr ∧ t.p.ps = s.p.ps ∧ t.p.pst = .absorb ∧
      t.p.pcnt.toNat = (s.p.pcnt.toNat + len.toNat) % 16 ∧
      let bytes := slice s.p.pbuf 0 s.p.pcnt.toNat ++ slice s.io.din 0 len.toNat
      t.p.pa = polyBlocks s.p.pa s.p.pr bytes (bytes.length / 16) ∧
      t.p.pbuf = toBlock (bytes.drop (16 * (bytes.length / 16)))) ∧
  (∀ s : State, s.p.pst = .absorb → ∃ t, exec (.pUpdate 0) s = .next t ∧ FrameDone .ok s t ∧ UnitsKept s t) ∧
  (∀ (len : BitVec 7) (s : State), len.toNat ≤ 64 → s.p.pst ≠ .absorb →
    ∃ t, exec (.pUpdate len) s = .next t ∧ TurnedAway .orderingViolation s t)

/-- P_FINAL (R183, R171, R189): the tag of the accumulator and the padded tail is output and the unit is wiped and
spent; with nothing absorbed the tag is s; a second P_FINAL is refused. That LCMD keeps its word is the model's
inference (assumption log 9). -/
def Obligations.PFinalOutputsTag : Prop :=
  encode .pFinal = 0x00000013 ∧
  (∀ s : State, s.p.pst = .absorb → P1305Inv s.p →
    ∃ t, exec .pFinal s = .next t ∧ FrameDone .ok s t ∧ t.ksg = s.ksg ∧ t.dp = s.dp ∧
      t.io.outlen = 16 ∧ t.io.matched = false ∧
      (let n := s.p.pcnt.toNat
       let h := if n = 0 then s.p.pa
         else polyBlock s.p.pa s.p.pr (toBlock (slice s.p.pbuf 0 n ++ [0x01])) false
       ∀ i : Fin 64, t.io.dout[i] = if i.val < 16 then byteAt (polyFinish h s.p.ps) i.val else 0) ∧
      t.p.pr = zeros 32 5 ∧ t.p.ps = zeros 32 4 ∧ t.p.pa = zeros 32 5 ∧ t.p.pbuf = zeros 8 16 ∧ t.p.pcnt = 0 ∧
      t.p.pst = .spent ∧
      (s.p.pa = zeros 32 5 → s.p.pcnt = 0 → leNat (slice t.io.dout 0 16) = sVal s.p.ps) ∧
      ∃ u, exec .pFinal t = .next u ∧ TurnedAway .orderingViolation t u) ∧
  (∀ s : State, s.p.pst ≠ .absorb → ∃ t, exec .pFinal s = .next t ∧ TurnedAway .orderingViolation s t)

/-- P_VERIFY (R184, R189): MATCH says whether DIN[0..16) is the tag P_FINAL would have output; ERR is OK either way,
nothing is output, and the unit is wiped and spent. That LCMD keeps its word is the model's inference (assumption
log 9). -/
def Obligations.PVerifyCompares : Prop :=
  encode .pVerify = 0x00000014 ∧
  (∀ s : State, s.p.pst = .absorb →
    ∃ t u, exec .pVerify s = .next t ∧ exec .pFinal s = .next u ∧
      FrameDone .ok s t ∧ t.ksg = s.ksg ∧ t.dp = s.dp ∧ t.io.dout = zeros 8 64 ∧ t.io.outlen = 0 ∧
      (t.io.matched = true ↔ slice u.io.dout 0 16 = slice s.io.din 0 16) ∧
      t.p.pr = zeros 32 5 ∧ t.p.ps = zeros 32 4 ∧ t.p.pa = zeros 32 5 ∧ t.p.pbuf = zeros 8 16 ∧ t.p.pcnt = 0 ∧
      t.p.pst = .spent) ∧
  (∀ s : State, s.p.pst ≠ .absorb → ∃ t, exec .pVerify s = .next t ∧ TurnedAway .orderingViolation s t)

/-- P_CLEAR (R186): the unit is wiped and unkeyed; legal in every state, idempotent, and it does not touch the KSG; a
P_UPDATE after it is an OrderingViolation. That LCMD keeps its word is the model's inference (assumption log 9). -/
def Obligations.PClearWipes : Prop :=
  encode .pClear = 0x00000015 ∧
  ∀ s : State, ∃ t, exec .pClear s = .next t ∧ FrameDone .ok s t ∧ NoOutput t ∧ t.ksg = s.ksg ∧ t.dp = s.dp ∧
    t.p.pr = zeros 32 5 ∧ t.p.ps = zeros 32 4 ∧ t.p.pa = zeros 32 5 ∧ t.p.pbuf = zeros 8 16 ∧ t.p.pcnt = 0 ∧
    t.p.pst = .unkeyed ∧ (∃ u, exec .pClear t = .next u ∧ UnitsKept t u) ∧
    ∀ len : BitVec 7, len.toNat ≤ 64 → ∃ v, exec (.pUpdate len) t = .next v ∧ v.io.err = .orderingViolation

/-- The clamped r: the value of its limbs, and the maxima of R161. -/
def Obligations.ClampedLimbs : Prop :=
  ∀ b : List Byte, b.length = 16 →
    RBounds (splitR (leNat b)) ∧
    limbVal (splitR (leNat b)) = leNat b &&& 0x0FFFFFFC0FFFFFFC0FFFFFFC0FFFFFFF

/-- One block step on limbs within the bounds of R161 and R170 stays within them and is a ← (a + n)·r mod p, with
n = LE128(b) + hb·2^128 (R163-R165, R170). -/
def Obligations.PolyBlockCongruence : Prop :=
  ∀ (pa pr : Vector Word 5) (b : Vector Byte 16) (hb : Bool), ABounds pa → RBounds pr →
    ABounds (polyBlock pa pr b hb) ∧
    limbVal (polyBlock pa pr b hb) % polyP =
      (limbVal pa + leNat b.toList + hb.toNat * 2 ^ 128) * limbVal pr % polyP

/-- The final reduction and the tag sum: on limbs within the bounds of R170 the tag is
((a mod p) + s) mod 2^128 (R166-R168). -/
def Obligations.PolyFinishTag : Prop :=
  ∀ (pa : Vector Word 5) (ps : Vector Word 4), ABounds pa →
    leNat (polyFinish pa ps).toList = (limbVal pa % polyP + sVal ps) % 2 ^ 128

/-- The tag of a message (R160, R169, R187): P_INIT with a key, P_UPDATE of the message in any chunks of at most 64
bytes, P_FINAL gives in DOUT[0..16) the tag of the integer form of R160, from every start state. -/
def Obligations.MessageTagIsInteger : Prop :=
  ∀ (s : State) (key : Vector Byte 64) (cs : List Chunk), (∀ c ∈ cs, c.2.toNat ≤ 64) →
    ∃ t u v, exec .pInit (withDin key s) = .next t ∧ updateAll t cs = .next u ∧ exec .pFinal u = .next v ∧
      v.io.err = .ok ∧ v.io.outlen = 16 ∧
      leNat (slice v.io.dout 0 16) = polyTag (slice key 0 32) (messageOf cs)

/-- Chunking invariance (R187): two partitions of one message leave the same P1305 unit. -/
def Obligations.ChunkingInvariance : Prop :=
  ∀ (s : State) (cs cs' : List Chunk), s.p.pst = .absorb →
    (∀ c ∈ cs, c.2.toNat ≤ 64) → (∀ c ∈ cs', c.2.toNat ≤ 64) → messageOf cs = messageOf cs' →
    ∃ t t', updateAll s cs = .next t ∧ updateAll s cs' = .next t' ∧ t.p = t'.p

/-- The constant-time compare is equality of all 16 bytes (R185). -/
def Obligations.CompareIsEquality : Prop :=
  ∀ t e : Vector Byte 16, ctEq t e = true ↔ t = e

/-- The lifecycle of the P1305 unit (R188): which commands move PST and where, and that P_UPDATE, P_FINAL and
P_VERIFY outside ABSORB are OrderingViolations with no change. -/
def Obligations.LifecycleTransitions : Prop :=
  ∀ (i : Instr) (s : State), i.wellFormed = true → ∃ t, exec i s = .next t ∧
    match i with
    | .pInit => t.p.pst = .absorb
    | .pClear => t.p.pst = .unkeyed
    | .pUpdate _ =>
      (s.p.pst = .absorb → t.p.pst = .absorb ∧ t.io.err = .ok) ∧
      (s.p.pst ≠ .absorb → TurnedAway .orderingViolation s t)
    | .pFinal =>
      (s.p.pst = .absorb → t.p.pst = .spent ∧ t.io.err = .ok) ∧
      (s.p.pst ≠ .absorb → TurnedAway .orderingViolation s t)
    | .pVerify =>
      (s.p.pst = .absorb → t.p.pst = .spent ∧ t.io.err = .ok) ∧
      (s.p.pst ≠ .absorb → TurnedAway .orderingViolation s t)
    | .ccInit => t.p.pst = s.p.pst
    | .ccSetctr => t.p.pst = s.p.pst
    | .ccBlock => t.p.pst = s.p.pst
    | .ccXor _ => t.p.pst = s.p.pst
    | .ccClear => t.p.pst = s.p.pst

/-! ## Errors and the command frame -/

/-- Which error the word in LCMD ends with, in the priority IllegalCommand, OrderingViolation, LengthExceeded (R201,
R202), for every word and state: IllegalCommand when the word is no command's, else what the command's unit state
gives. -/
def Obligations.ErrorConditions : Prop :=
  ∀ s : State, ∃ t, coreStep s = .next t ∧
    (t.io.err = .illegalCommand ↔ ∀ i : Instr, i.wellFormed = true → encode i ≠ s.io.lcmd) ∧
    (t.io.err = .orderingViolation ↔ ∃ i : Instr, i.wellFormed = true ∧ encode i = s.io.lcmd ∧
      match i with
      | .ccInit => False
      | .ccSetctr => s.ksg.keyed = false ∨ s.ksg.used = true
      | .ccBlock => s.ksg.keyed = false
      | .ccXor _ => s.ksg.keyed = false
      | .ccClear => False
      | .pInit => False
      | .pUpdate _ => s.p.pst ≠ .absorb
      | .pFinal => s.p.pst ≠ .absorb
      | .pVerify => s.p.pst ≠ .absorb
      | .pClear => False) ∧
    (t.io.err = .lengthExceeded ↔ ∃ i : Instr, i.wellFormed = true ∧ encode i = s.io.lcmd ∧
      match i with
      | .ccInit => False
      | .ccSetctr => False
      | .ccBlock => s.ksg.keyed = true ∧ s.ksg.exh = true
      | .ccXor len => s.ksg.keyed = true ∧ 1 ≤ len.toNat ∧ s.ksg.exh = true
      | .ccClear => False
      | .pInit => False
      | .pUpdate _ => False
      | .pFinal => False
      | .pVerify => False
      | .pClear => False)

/-- An error changes no unit state: the CORE's step writes ERR and the frame's clears, whatever word is in LCMD
(R203). -/
def Obligations.ErrorsChangeNoUnit : Prop :=
  ∀ s : State, ∃ t, coreStep s = .next t ∧ (t.io.err ≠ .ok → TurnedAway t.io.err s t)

/-- DIN (R27): all 0 at reset, written by the host as little-endian words, read as 0, and cleared by every command
whatever its result. -/
def Obligations.DinLifecycle : Prop :=
  State.reset.io.din = zeros 8 64 ∧
  (∀ (s : State) (j : Fin 16) (v : Word), s.io.busy = false →
    ∃ t, memWrite (BitVec.ofNat 8 (0x40 + 4 * j.val)) 4 v s = .next t ∧
      ∀ i : Fin 64, t.io.din[i] = if i.val / 4 = j.val then byteOf v (i.val % 4) else s.io.din[i]) ∧
  (∀ (s : State) (j : Fin 16), ∃ t, memRead (BitVec.ofNat 8 (0x40 + 4 * j.val)) 4 s = .next t ∧
    t.host.seen = 0 :: s.host.seen) ∧
  (∀ s : State, ∃ t, coreStep s = .next t ∧ t.io.din = zeros 8 64)

/-- DOUT (R28): all 0 at reset, not writable by the host, and after every command 0 from OUTLEN on. -/
def Obligations.DoutLifecycle : Prop :=
  State.reset.io.dout = zeros 8 64 ∧
  (∀ (s : State) (j : Fin 16) (v : Word), memWrite (BitVec.ofNat 8 (0x80 + 4 * j.val)) 4 v s = .next s) ∧
  (∀ s : State, ∃ t, coreStep s = .next t ∧ t.io.outlen.toNat ≤ 64 ∧
    ∀ i : Fin 64, t.io.outlen.toNat ≤ i.val → t.io.dout[i] = 0)

/-- The CORE never reports AuthFail; a P_VERIFY mismatch is ERR = OK with MATCH = 0 (R210). -/
def Obligations.AuthFailNever : Prop :=
  (∀ s : State, ∃ t, coreStep s = .next t ∧ t.io.err ≠ .authFail) ∧
  (∀ s : State, s.p.pst = .absorb → computeTag s.p ≠ tagOperand s.io.din →
    ∃ t, exec .pVerify s = .next t ∧ t.io.err = .ok ∧ t.io.matched = false)

/-- DIN bytes a command does not list are ignored by it (R82): a command's next state is the same for two contents of
DIN that agree on the bytes it reads. -/
def Obligations.UnlistedDinIgnored : Prop :=
  ∀ (i : Instr) (s : State) (din : Vector Byte 64),
    (∀ k : Fin 64, k.val < operandBytes i → din[k] = s.io.din[k]) → exec i (withDin din s) = exec i s

/-! ## The register window -/

/-- Reads with BUSY = 0 (R54): the value at every aligned offset, and that a read changes no register. -/
def Obligations.IdleReads : Prop :=
  ∀ (s : State) (off : BitVec 8), s.io.busy = false → off.toNat % 4 = 0 →
    ∃ t, memRead off 4 s = .next t ∧ t.io = s.io ∧ UnitsKept s t ∧
      t.host.queue = s.host.queue ∧ t.host.draws = s.host.draws ∧ t.host.wait = s.host.wait ∧
      let n := off.toNat
      let v := if n = 0x04 then statusWord s.io else if n = 0x08 then s.ksg.ctr
        else if n = 0x0C then ccFlagsWord s.ksg else if n = 0x10 then pFlagsWord s.p
        else if 0x80 ≤ n ∧ n < 0xC0 then le32 s.io.dout (n - 0x80) else 0
      t.host.seen = v :: s.host.seen

/-- Writes with BUSY = 0 (R55): CMD latches and starts, DIN takes the word, every other aligned offset accepts and
ignores it. -/
def Obligations.IdleWrites : Prop :=
  ∀ (s : State) (off : BitVec 8) (v : Word), s.io.busy = false → off.toNat % 4 = 0 →
    (off = 0x00 → ∃ t, memWrite off 4 v s = .next t ∧ t.io.lcmd = v ∧ t.io.busy = true) ∧
    (0x40 ≤ off.toNat ∧ off.toNat < 0x80 → ∃ t, memWrite off 4 v s = .next t ∧
      UnitsKept s t ∧ t.host = s.host ∧
      (∀ i : Fin 64, t.io.din[i] =
        if off.toNat - 0x40 ≤ i.val ∧ i.val < off.toNat - 0x40 + 4
        then byteOf v (i.val - (off.toNat - 0x40)) else s.io.din[i]) ∧
      t.io.lcmd = s.io.lcmd ∧ t.io.busy = false ∧ t.io.err = s.io.err ∧ t.io.matched = s.io.matched ∧
      t.io.outlen = s.io.outlen ∧ t.io.dout = s.io.dout) ∧
    (off ≠ 0x00 → ¬(0x40 ≤ off.toNat ∧ off.toNat < 0x80) → memWrite off 4 v s = .next s)

/-- Little-endian window (R53): byte k of a DIN word is v[8k+7:8k], a DOUT word is Σ DOUT[4j+k]·2^(8k), and a lane
written as a word is the lane a command reads. -/
def Obligations.WindowByteOrder : Prop :=
  ∀ (s : State) (j : Fin 16) (v : Word), s.io.busy = false →
    (∃ t, memWrite (BitVec.ofNat 8 (0x40 + 4 * j.val)) 4 v s = .next t ∧
      (∀ k : Fin 4, byteAt t.io.din (4 * j.val + k.val) = v.extractLsb' (8 * k.val) 8) ∧
      le32 t.io.din (4 * j.val) = v) ∧
    (∃ t, memRead (BitVec.ofNat 8 (0x80 + 4 * j.val)) 4 s = .next t ∧
      t.host.seen.map BitVec.toNat =
        ((byteAt s.io.dout (4 * j.val)).toNat + 2 ^ 8 * (byteAt s.io.dout (4 * j.val + 1)).toNat +
          2 ^ 16 * (byteAt s.io.dout (4 * j.val + 2)).toNat + 2 ^ 24 * (byteAt s.io.dout (4 * j.val + 3)).toNat) ::
          s.host.seen.map BitVec.toNat)

/-- Only an aligned 32-bit access is served; every other access, read or write, with BUSY 0 or 1, is an AccessFault,
and an aligned 32-bit access never is (R52). -/
def Obligations.UnservedAccessFaults : Prop :=
  ∀ (s : State) (off : BitVec 8) (size : Nat) (v : Word),
    (memRead off size s = .fault .accessFault ↔ size ≠ 4 ∨ off.toNat % 4 ≠ 0) ∧
    (memWrite off size v s = .fault .accessFault ↔ size ≠ 4 ∨ off.toNat % 4 ≠ 0)

/-- Reads with BUSY = 1 (R240): STATUS has bit 0 = 1 and its other bits free, CC_CTR, CC_FLAGS, P_FLAGS and DOUT are
a free draw each time, the rest read 0, and no register changes. That a draw is `Config.freeWord` of a counter, which
every such read advances, is the model's choice (assumption log 2); nothing is known of `Config.freeWord`. -/
def Obligations.BusyReads : Prop :=
  ∀ (s : State) (off : BitVec 8), s.io.busy = true → off.toNat % 4 = 0 →
    ∃ t v, memRead off 4 s = .next t ∧ t.io = s.io ∧ UnitsKept s t ∧ t.host.seen = v :: s.host.seen ∧
      t.host.queue = s.host.queue ∧ t.host.wait = s.host.wait ∧ t.host.draws = s.host.draws + 1 ∧
      let n := off.toNat
      let free := Config.freeWord s.host.draws
      (n = 0x04 → v[0] = true ∧ ∀ i : Fin 32, i.val ≠ 0 → v[i] = free[i]) ∧
      (n = 0x08 ∨ n = 0x0C ∨ n = 0x10 ∨ (0x80 ≤ n ∧ n < 0xC0) → v = free) ∧
      (n = 0x00 ∨ (0x14 ≤ n ∧ n < 0x80) ∨ 0xC0 ≤ n → v = 0)

/-- Writes with BUSY = 1 (R241): CMD and DIN are a HostProtocolViolation, every other aligned offset is ignored. -/
def Obligations.BusyWrites : Prop :=
  ∀ (s : State) (off : BitVec 8) (v : Word), s.io.busy = true → off.toNat % 4 = 0 →
    (off.toNat = 0x00 ∨ (0x40 ≤ off.toNat ∧ off.toNat < 0x80) →
      memWrite off 4 v s = .fault .hostProtocolViolation) ∧
    (off.toNat ≠ 0x00 ∧ ¬(0x40 ≤ off.toNat ∧ off.toNat < 0x80) → memWrite off 4 v s = .next s)

/-- CMD (R22): a write while BUSY = 0 latches the word in LCMD and sets BUSY, leaving every other register, and what
the CORE then runs is the command the word encodes; a read returns 0; LCMD is 0 at reset. -/
def Obligations.CommandStarts : Prop :=
  State.reset.io.lcmd = 0 ∧
  (∀ (s : State) (w : Word), s.io.busy = false →
    ∃ t, memWrite 0x00 4 w s = .next t ∧ t.io.lcmd = w ∧ t.io.busy = true ∧ UnitsKept s t ∧
      t.io.err = s.io.err ∧ t.io.matched = s.io.matched ∧ t.io.outlen = s.io.outlen ∧
      t.io.din = s.io.din ∧ t.io.dout = s.io.dout ∧
      (∀ i, decode w = .ok i → coreStep t = exec i t) ∧
      (∀ e, decode w = .error e → ∃ u, coreStep t = .next u ∧ TurnedAway .illegalCommand t u)) ∧
  (∀ s : State, ∃ t, memRead 0x00 4 s = .next t ∧ t.host.seen = 0 :: s.host.seen)

/-- The bit fields of STATUS (R23), CC_FLAGS (R25) and P_FLAGS (R26), and the numbers the ERR (R200) and PST (R43)
fields hold. -/
def Obligations.FlagWords : Prop :=
  (ErrCode.ok.code = 0 ∧ ErrCode.lengthExceeded.code = 1 ∧ ErrCode.orderingViolation.code = 2 ∧
    ErrCode.authFail.code = 3 ∧ ErrCode.illegalCommand.code = 4) ∧
  (Pst.unkeyed.code = 0 ∧ Pst.absorb.code = 1 ∧ Pst.spent.code = 2) ∧
  (∀ io : Interface,
    (statusWord io).extractLsb' 0 1 = BitVec.ofBool io.busy ∧ (statusWord io).extractLsb' 1 3 = 0 ∧
    (statusWord io).extractLsb' 4 4 = io.err.code ∧ (statusWord io).extractLsb' 8 1 = BitVec.ofBool io.matched ∧
    (statusWord io).extractLsb' 9 7 = 0 ∧ (statusWord io).extractLsb' 16 7 = io.outlen ∧
    (statusWord io).extractLsb' 23 9 = 0) ∧
  (∀ k : Ksg,
    (ccFlagsWord k).extractLsb' 0 1 = BitVec.ofBool k.keyed ∧ (ccFlagsWord k).extractLsb' 1 1 = BitVec.ofBool k.used ∧
    (ccFlagsWord k).extractLsb' 2 1 = BitVec.ofBool k.exh ∧ (ccFlagsWord k).extractLsb' 3 29 = 0) ∧
  (∀ p : P1305,
    (pFlagsWord p).extractLsb' 0 2 = p.pst.code ∧ (pFlagsWord p).extractLsb' 2 6 = 0 ∧
    (pFlagsWord p).extractLsb' 8 5 = p.pcnt ∧ (pFlagsWord p).extractLsb' 13 19 = 0 ∧ p.pst.code ≠ 3)

/-- The window is the 256 bytes at BASE, a multiple of 256 (R50); LAT is at least 1 and QR_UNITS is 1, 2 or 4 (R5,
R244). -/
def Obligations.ParametersAndPlacement : Prop :=
  Config.base % 256 = 0 ∧
  (∀ off : BitVec 8, windowOffset (Config.base + off.toNat) = some off) ∧
  (∀ addr : Nat, addr < Config.base ∨ Config.base + 256 ≤ addr → windowOffset addr = none) ∧
  (∀ (w : Word) (f : PublicFlags), 1 ≤ Config.lat w f) ∧
  (Config.qrUnits.count = 1 ∨ Config.qrUnits.count = 2 ∨ Config.qrUnits.count = 4)

/-! ## The step -/

/-- A step runs the decoded command: while BUSY = 1, when the HOST has nothing to do or its drawn accesses are served,
the step is `exec` of the command LCMD decodes to, and an IllegalCommand completion where it decodes to none
(R204). Otherwise the step is the HOST's next operation, or, with none, the state is held (R11, R60, R217). That the
HOST's operations are a queue and that a drawn number of them comes first is the model's choice (assumption logs 1,
3). -/
def Obligations.StepRunsDecoded : Prop :=
  (∀ s : State, s.io.busy = true → (s.host.queue = [] ∨ s.host.wait = 0) →
    (∀ i, decode s.io.lcmd = .ok i → step s = exec i s) ∧
    (∀ e, decode s.io.lcmd = .error e → ∃ t, step s = .next t ∧ TurnedAway .illegalCommand s t)) ∧
  (∀ s : State, ∀ op rest, s.host.queue = op :: rest → (s.io.busy = false ∨ s.host.wait ≠ 0) →
    step s = serveOp op (popOp rest s)) ∧
  (∀ s : State, s.io.busy = false → s.host.queue = [] → step s = .next s)

/-- A command word placed where the step takes its command runs as the very next step. That the place is LCMD with
BUSY = 1 is the model's choice (assumption log 5). -/
def Obligations.FetchWordRuns : Prop :=
  ∀ (i : Instr) (s : State), i.wellFormed = true →
    decodeTableWord 32 (encode i).toNat = some i ∧
    step (s.withFetchWord 32 (encode i).toNat) = exec i (s.withFetchWord 32 (encode i).toNat)

/-- The reset values (R230), and that a host then reads 0 at every aligned offset. -/
def Obligations.ResetValues : Prop :=
  let s := State.reset
  s.io.lcmd = 0 ∧ s.io.busy = false ∧ s.io.err = .ok ∧ s.io.matched = false ∧ s.io.outlen = 0 ∧
  s.ksg.ctr = 0 ∧ s.ksg.exh = false ∧ s.ksg.keyed = false ∧ s.ksg.used = false ∧
  (∀ i : Fin 8, s.ksg.key[i] = 0) ∧ (∀ i : Fin 3, s.ksg.nonce[i] = 0) ∧
  (∀ i : Fin 64, s.io.din[i] = 0) ∧ (∀ i : Fin 64, s.io.dout[i] = 0) ∧
  (∀ i : Fin 16, s.dp.x[i] = 0) ∧ (∀ i : Fin 16, s.dp.snap[i] = 0) ∧ (∀ i : Fin 64, s.dp.ks[i] = 0) ∧
  s.dp.seq = .idle ∧ s.dp.rc = 0 ∧ s.dp.half = .column ∧ s.dp.qi = 0 ∧
  (∀ i : Fin 5, s.p.pr[i] = 0) ∧ (∀ i : Fin 4, s.p.ps[i] = 0) ∧ (∀ i : Fin 5, s.p.pa[i] = 0) ∧
  (∀ i : Fin 16, s.p.pbuf[i] = 0) ∧ s.p.pcnt = 0 ∧ s.p.pst = .unkeyed ∧
  (∀ off : BitVec 8, off.toNat % 4 = 0 → readReg s (regAt off) = 0)

/-- Reset, from any state and whatever was in flight (R231, R232): every register of the CORE takes its reset value.
That reset is one operation in the HOST's queue and leaves the HOST's other operations is the model's choice
(assumption log 7). -/
def Obligations.ResetWipes : Prop :=
  ∀ (s : State) (rest : List HostOp), coreMoves s = false → s.host.queue = .reset :: rest →
    ∃ t, step s = .next t ∧ t.io = State.reset.io ∧ t.ksg = State.reset.ksg ∧ t.dp = State.reset.dp ∧
      t.p = State.reset.p ∧ t.host.queue = rest ∧ t.host.seen = s.host.seen

/-! ## The whole machine -/

/-- The invariant of the registers holds at reset (R230). -/
def Obligations.ResetMeetsInvariant : Prop := Inv State.reset

/-- Every step keeps the invariant of the registers: counter, datapath and buffer states, limb bounds, result buffer
and error code (R28, R32-R38, R39, R41, R42, R170, R189, R203, R210). The clause on RC, H and QI is the model's
choice (assumption log 6). -/
def Obligations.StepKeepsInvariant : Prop :=
  ∀ s t : State, Inv s → step s = .next t → Inv t

/-- A started command completes: with a polite host, within as many steps as host operations were drawn to come
first, plus one, BUSY is 0 (R209, R208, R244). The drawn number is the model's choice (assumption log 3). -/
def Obligations.CommandFinishes : Prop :=
  ∀ s : State, s.io.busy = true → PoliteHost s →
    ∃ (n : Nat) (t : State), n ≤ s.host.wait + 1 ∧ Sys2Proof.core.run n s = .next t ∧ t.io.busy = false

/-- A polite host never meets a fault: aligned 32-bit accesses with a poll after every command go on forever
(R52, R88, R206, R209, R241). The HOST's queue is the model's choice (assumption log 1). -/
def Obligations.PoliteHostNeverStops : Prop :=
  ∀ s : State, PoliteHost s → ∀ k : Nat, ∃ t : State, Sys2Proof.core.run k s = .next t ∧ PoliteHost t

/-- Results persist (R245, R54, R55): a step of the HOST other than reset leaves DOUT, OUTLEN, ERR, MATCH and every
unit as they were; only the CORE's step discards the results. Which of the two moves is the model's choice
(assumption log 3). -/
def Obligations.ResultsPersist : Prop :=
  ∀ s t : State, coreMoves s = false → ¬resetNext s → step s = .next t →
    UnitsKept s t ∧ t.io.dout = s.io.dout ∧ t.io.outlen = s.io.outlen ∧ t.io.err = s.io.err ∧
    t.io.matched = s.io.matched

/-- KEY and NONCE change only by CC_INIT, CC_CLEAR and reset (R29-R31). -/
def Obligations.KeyNonceConstant : Prop :=
  ∀ s t : State, step s = .next t → (t.ksg.key ≠ s.ksg.key ∨ t.ksg.nonce ≠ s.ksg.nonce) →
    executes .ccInit s ∨ executes .ccClear s ∨ resetNext s

/-- What sets and what clears each flag (R46), over every step of the machine: MATCH is set only by a P_VERIFY with
equal tags (R184) and cleared only by the start of a command or reset. When the CORE moves is the model's choice
(assumption log 3). -/
def Obligations.FlagWriters : Prop :=
  ∀ s t : State, step s = .next t →
    (s.ksg.keyed = false → t.ksg.keyed = true → executes .ccInit s) ∧
    (s.ksg.keyed = true → t.ksg.keyed = false → executes .ccClear s ∨ resetNext s) ∧
    (s.ksg.used = false → t.ksg.used = true →
      executes .ccBlock s ∨ ∃ len : BitVec 7, 1 ≤ len.toNat ∧ executes (.ccXor len) s) ∧
    (s.ksg.used = true → t.ksg.used = false → executes .ccInit s ∨ executes .ccClear s ∨ resetNext s) ∧
    (s.ksg.exh = false → t.ksg.exh = true →
      s.ksg.ctr = 0xFFFFFFFF ∧ (executes .ccBlock s ∨ ∃ len : BitVec 7, 1 ≤ len.toNat ∧ executes (.ccXor len) s)) ∧
    (s.ksg.exh = true → t.ksg.exh = false →
      executes .ccInit s ∨ executes .ccSetctr s ∨ executes .ccClear s ∨ resetNext s) ∧
    (s.p.pst ≠ .absorb → t.p.pst = .absorb → executes .pInit s) ∧
    (s.p.pst ≠ .spent → t.p.pst = .spent → executes .pFinal s ∨ executes .pVerify s) ∧
    (s.p.pst ≠ .unkeyed → t.p.pst = .unkeyed → executes .pClear s ∨ resetNext s) ∧
    (t.io.matched = true → s.io.matched = true ∧ coreMoves s = false ∨
      executes .pVerify s ∧ s.p.pst = .absorb ∧ computeTag s.p = tagOperand s.io.din) ∧
    (s.io.matched = true → t.io.matched = false → coreMoves s = true ∨ resetNext s) ∧
    (s.io.busy = false → t.io.busy = true → ∃ v rest, s.host.queue = .write 0x00 4 v :: rest) ∧
    (s.io.busy = true → t.io.busy = false → coreMoves s = true ∨ resetNext s)

/-- No host access reads secret state (R45, R54): for two states that differ only in KEY, NONCE, X, SNAP, KS, PR, PS,
PA, PBUF and DIN, a step of the HOST gives the same values, the same public registers or the same stop. The HOST side
of the state is the model's (assumption logs 1-3). -/
def Obligations.HostCannotReadSecrets : Prop :=
  ∀ s t : State, PublicEq s t → coreMoves s = false → PublicOutcome (step s) (step t)

/-- A command's control depends on public values only (R118, R190, R243): for two states that differ only in secret
registers the CORE's step reports the same error and length and leaves the same flags, lifecycle and byte count. When
the CORE moves is the model's choice (assumption log 3). -/
def Obligations.CommandControlPublic : Prop :=
  ∀ s t : State, PublicEq s t → coreMoves s = true →
    ∃ s' t', step s = .next s' ∧ step t = .next t' ∧
      s'.io.err = t'.io.err ∧ s'.io.outlen = t'.io.outlen ∧ s'.io.busy = t'.io.busy ∧
      s'.ksg.keyed = t'.ksg.keyed ∧ s'.ksg.used = t'.ksg.used ∧ s'.ksg.exh = t'.ksg.exh ∧
      s'.p.pst = t'.p.pst ∧ s'.p.pcnt = t'.p.pcnt ∧ s'.host = t'.host

/-! ## The host notation -/

/-- RDOUT n (R88, R53): with BUSY = 0, after its ⌈n/4⌉ reads the result bytes are DOUT[0..n); no register of the CORE
has changed and the HOST goes on with what follows. That the HOST's operations are a queue and its read values a list is
the model's choice (assumption log 1). -/
def Obligations.RdoutGivesResult : Prop :=
  ∀ (n : Nat) (s : State) (rest : List HostOp), n ≤ 64 → s.io.busy = false → s.host.queue = rdout n ++ rest →
    ∃ t : State, Sys2Proof.core.run ((n + 3) / 4) s = .next t ∧
      rdoutResult n t = slice s.io.dout 0 n ∧ rdoutResult n t = slice t.io.dout 0 n ∧
      t.io = s.io ∧ UnitsKept s t ∧ t.host.queue = rest

/-- XCMD c, bytes (R88): with BUSY = 0, after the ⌈n/4⌉ DIN writes of LDIN and the CMD write, DIN holds the bytes, filled
up with 0x00 to a multiple of 4, the bytes of DIN beyond them as they were, and c is in flight, with its POLL next. A
POLL is one read of STATUS; it stays the HOST's next operation exactly while bit 0 of what it read is 1. That the
HOST's operations are a queue and its read values a list is the model's choice (assumption log 1). -/
def Obligations.XcmdRuns : Prop :=
  (∀ (i : Instr) (bytes : List Byte) (s : State) (rest : List HostOp), bytes.length ≤ 64 → s.io.busy = false →
    s.host.queue = xcmd i bytes ++ rest →
    ∃ t : State, Sys2Proof.core.run ((bytes.length + 3) / 4 + 1) s = .next t ∧
      (∀ k : Fin 64, t.io.din[k] =
        if k.val < 4 * ((bytes.length + 3) / 4) then bytes[k.val]?.getD 0 else s.io.din[k]) ∧
      t.io.lcmd = encode i ∧ t.io.busy = true ∧ UnitsKept s t ∧ t.host.queue = .poll :: rest ∧
      t.host.seen = s.host.seen) ∧
  (∀ (s : State) (rest : List HostOp), coreMoves s = false → s.host.queue = .poll :: rest →
    ∃ t v, step s = .next t ∧ t.host.seen = v :: s.host.seen ∧ v[0] = s.io.busy ∧ t.io = s.io ∧ UnitsKept s t ∧
      t.host.queue = if v[0] then .poll :: rest else rest)
end

