-- ==== Sys2Proof/Laws/State.lean ====
section
/-! SUPPORT. One lemma per field for each named update of the state, each by unfolding the update once: no later proof unfolds a record
update. -/

namespace Sys2Proof.Machine

/-! The first part of the command frame (R204). -/

@[simp] theorem beginCommand_io_lcmd (s : State) : (beginCommand s).io.lcmd = s.io.lcmd := by rw [beginCommand]
@[simp] theorem beginCommand_io_busy (s : State) : (beginCommand s).io.busy = s.io.busy := by rw [beginCommand]
@[simp] theorem beginCommand_io_err (s : State) : (beginCommand s).io.err = s.io.err := by rw [beginCommand]
@[simp] theorem beginCommand_io_matched (s : State) : (beginCommand s).io.matched = false := by rw [beginCommand]
@[simp] theorem beginCommand_io_outlen (s : State) : (beginCommand s).io.outlen = 0 := by rw [beginCommand]
@[simp] theorem beginCommand_io_din (s : State) : (beginCommand s).io.din = s.io.din := by rw [beginCommand]
@[simp] theorem beginCommand_io_dout (s : State) : (beginCommand s).io.dout = zeros 8 64 := by rw [beginCommand]
@[simp] theorem beginCommand_ksg (s : State) : (beginCommand s).ksg = s.ksg := by rw [beginCommand]
@[simp] theorem beginCommand_dp (s : State) : (beginCommand s).dp = s.dp := by rw [beginCommand]
@[simp] theorem beginCommand_p (s : State) : (beginCommand s).p = s.p := by rw [beginCommand]
@[simp] theorem beginCommand_host (s : State) : (beginCommand s).host = s.host := by rw [beginCommand]

/-! The last part of the command frame (R204). -/

@[simp] theorem finishCommand_io_lcmd (e : ErrCode) (s : State) : (finishCommand e s).io.lcmd = s.io.lcmd := by rw [finishCommand]
@[simp] theorem finishCommand_io_busy (e : ErrCode) (s : State) : (finishCommand e s).io.busy = false := by rw [finishCommand]
@[simp] theorem finishCommand_io_err (e : ErrCode) (s : State) : (finishCommand e s).io.err = e := by rw [finishCommand]
@[simp] theorem finishCommand_io_matched (e : ErrCode) (s : State) : (finishCommand e s).io.matched = s.io.matched := by rw [finishCommand]
@[simp] theorem finishCommand_io_outlen (e : ErrCode) (s : State) : (finishCommand e s).io.outlen = s.io.outlen := by rw [finishCommand]
@[simp] theorem finishCommand_io_din (e : ErrCode) (s : State) : (finishCommand e s).io.din = zeros 8 64 := by rw [finishCommand]
@[simp] theorem finishCommand_io_dout (e : ErrCode) (s : State) : (finishCommand e s).io.dout = s.io.dout := by rw [finishCommand]
@[simp] theorem finishCommand_ksg (e : ErrCode) (s : State) : (finishCommand e s).ksg = s.ksg := by rw [finishCommand]
@[simp] theorem finishCommand_dp (e : ErrCode) (s : State) : (finishCommand e s).dp = s.dp := by rw [finishCommand]
@[simp] theorem finishCommand_p (e : ErrCode) (s : State) : (finishCommand e s).p = s.p := by rw [finishCommand]
@[simp] theorem finishCommand_host (e : ErrCode) (s : State) : (finishCommand e s).host = s.host := by rw [finishCommand]

/-! Block generation (R130). -/

@[simp] theorem genBlock_io (s : State) : (genBlock s).io = s.io := by rw [genBlock]
@[simp] theorem genBlock_ksg (s : State) : (genBlock s).ksg = { advance s.ksg with used := true } := by rw [genBlock]
@[simp] theorem genBlock_dp (s : State) : (genBlock s).dp = Datapath.afterBlock (blockFn s.ksg.key s.ksg.ctr s.ksg.nonce) := by rw [genBlock]
@[simp] theorem genBlock_p (s : State) : (genBlock s).p = s.p := by rw [genBlock]
@[simp] theorem genBlock_host (s : State) : (genBlock s).host = s.host := by rw [genBlock]

/-! The block output selector (R133). -/

@[simp] theorem selectOutput_io_lcmd (len : BitVec 7) (s : State) : (selectOutput len s).io.lcmd = s.io.lcmd := by rw [selectOutput]
@[simp] theorem selectOutput_io_busy (len : BitVec 7) (s : State) : (selectOutput len s).io.busy = s.io.busy := by rw [selectOutput]
@[simp] theorem selectOutput_io_err (len : BitVec 7) (s : State) : (selectOutput len s).io.err = s.io.err := by rw [selectOutput]
@[simp] theorem selectOutput_io_matched (len : BitVec 7) (s : State) : (selectOutput len s).io.matched = s.io.matched := by rw [selectOutput]
@[simp] theorem selectOutput_io_outlen (len : BitVec 7) (s : State) : (selectOutput len s).io.outlen = len := by rw [selectOutput]
@[simp] theorem selectOutput_io_din (len : BitVec 7) (s : State) : (selectOutput len s).io.din = s.io.din := by rw [selectOutput]
@[simp] theorem selectOutput_io_dout (len : BitVec 7) (s : State) : (selectOutput len s).io.dout = selectedBytes len s.io.din s.dp.ks s.io.dout := by rw [selectOutput]
@[simp] theorem selectOutput_ksg (len : BitVec 7) (s : State) : (selectOutput len s).ksg = s.ksg := by rw [selectOutput]
@[simp] theorem selectOutput_dp_x (len : BitVec 7) (s : State) : (selectOutput len s).dp.x = s.dp.x := by rw [selectOutput]
@[simp] theorem selectOutput_dp_snap (len : BitVec 7) (s : State) : (selectOutput len s).dp.snap = s.dp.snap := by rw [selectOutput]
@[simp] theorem selectOutput_dp_ks (len : BitVec 7) (s : State) : (selectOutput len s).dp.ks = zeros 8 64 := by rw [selectOutput]
@[simp] theorem selectOutput_dp_seq (len : BitVec 7) (s : State) : (selectOutput len s).dp.seq = s.dp.seq := by rw [selectOutput]
@[simp] theorem selectOutput_dp_rc (len : BitVec 7) (s : State) : (selectOutput len s).dp.rc = s.dp.rc := by rw [selectOutput]
@[simp] theorem selectOutput_dp_half (len : BitVec 7) (s : State) : (selectOutput len s).dp.half = s.dp.half := by rw [selectOutput]
@[simp] theorem selectOutput_dp_qi (len : BitVec 7) (s : State) : (selectOutput len s).dp.qi = s.dp.qi := by rw [selectOutput]
@[simp] theorem selectOutput_p (len : BitVec 7) (s : State) : (selectOutput len s).p = s.p := by rw [selectOutput]
@[simp] theorem selectOutput_host (len : BitVec 7) (s : State) : (selectOutput len s).host = s.host := by rw [selectOutput]

/-! A value read by the HOST (R87). -/

@[simp] theorem recordRead_io (v : Word) (s : State) : (recordRead v s).io = s.io := by rw [recordRead]
@[simp] theorem recordRead_ksg (v : Word) (s : State) : (recordRead v s).ksg = s.ksg := by rw [recordRead]
@[simp] theorem recordRead_dp (v : Word) (s : State) : (recordRead v s).dp = s.dp := by rw [recordRead]
@[simp] theorem recordRead_p (v : Word) (s : State) : (recordRead v s).p = s.p := by rw [recordRead]
@[simp] theorem recordRead_host_queue (v : Word) (s : State) : (recordRead v s).host.queue = s.host.queue := by rw [recordRead]
@[simp] theorem recordRead_host_seen (v : Word) (s : State) : (recordRead v s).host.seen = v :: s.host.seen := by rw [recordRead]
@[simp] theorem recordRead_host_draws (v : Word) (s : State) : (recordRead v s).host.draws = s.host.draws := by rw [recordRead]
@[simp] theorem recordRead_host_wait (v : Word) (s : State) : (recordRead v s).host.wait = s.host.wait := by rw [recordRead]

/-! A free draw taken (R240). -/

@[simp] theorem takeDraw_io (s : State) : (takeDraw s).io = s.io := by rw [takeDraw]
@[simp] theorem takeDraw_ksg (s : State) : (takeDraw s).ksg = s.ksg := by rw [takeDraw]
@[simp] theorem takeDraw_dp (s : State) : (takeDraw s).dp = s.dp := by rw [takeDraw]
@[simp] theorem takeDraw_p (s : State) : (takeDraw s).p = s.p := by rw [takeDraw]
@[simp] theorem takeDraw_host_queue (s : State) : (takeDraw s).host.queue = s.host.queue := by rw [takeDraw]
@[simp] theorem takeDraw_host_seen (s : State) : (takeDraw s).host.seen = s.host.seen := by rw [takeDraw]
@[simp] theorem takeDraw_host_draws (s : State) : (takeDraw s).host.draws = s.host.draws + 1 := by rw [takeDraw]
@[simp] theorem takeDraw_host_wait (s : State) : (takeDraw s).host.wait = s.host.wait := by rw [takeDraw]

/-! A DIN write (R53). -/

@[simp] theorem writeDin_io_lcmd (j : Fin 16) (v : Word) (s : State) : (writeDin j v s).io.lcmd = s.io.lcmd := by rw [writeDin]
@[simp] theorem writeDin_io_busy (j : Fin 16) (v : Word) (s : State) : (writeDin j v s).io.busy = s.io.busy := by rw [writeDin]
@[simp] theorem writeDin_io_err (j : Fin 16) (v : Word) (s : State) : (writeDin j v s).io.err = s.io.err := by rw [writeDin]
@[simp] theorem writeDin_io_matched (j : Fin 16) (v : Word) (s : State) : (writeDin j v s).io.matched = s.io.matched := by rw [writeDin]
@[simp] theorem writeDin_io_outlen (j : Fin 16) (v : Word) (s : State) : (writeDin j v s).io.outlen = s.io.outlen := by rw [writeDin]
@[simp] theorem writeDin_io_din (j : Fin 16) (v : Word) (s : State) : (writeDin j v s).io.din = dinWithWord s.io.din j v := by rw [writeDin]
@[simp] theorem writeDin_io_dout (j : Fin 16) (v : Word) (s : State) : (writeDin j v s).io.dout = s.io.dout := by rw [writeDin]
@[simp] theorem writeDin_ksg (j : Fin 16) (v : Word) (s : State) : (writeDin j v s).ksg = s.ksg := by rw [writeDin]
@[simp] theorem writeDin_dp (j : Fin 16) (v : Word) (s : State) : (writeDin j v s).dp = s.dp := by rw [writeDin]
@[simp] theorem writeDin_p (j : Fin 16) (v : Word) (s : State) : (writeDin j v s).p = s.p := by rw [writeDin]
@[simp] theorem writeDin_host (j : Fin 16) (v : Word) (s : State) : (writeDin j v s).host = s.host := by rw [writeDin]

/-! A CMD write (R22). -/

@[simp] theorem startCommand_io_lcmd (w : Word) (s : State) : (startCommand w s).io.lcmd = w := by rw [startCommand]
@[simp] theorem startCommand_io_busy (w : Word) (s : State) : (startCommand w s).io.busy = true := by rw [startCommand]
@[simp] theorem startCommand_io_err (w : Word) (s : State) : (startCommand w s).io.err = s.io.err := by rw [startCommand]
@[simp] theorem startCommand_io_matched (w : Word) (s : State) : (startCommand w s).io.matched = s.io.matched := by rw [startCommand]
@[simp] theorem startCommand_io_outlen (w : Word) (s : State) : (startCommand w s).io.outlen = s.io.outlen := by rw [startCommand]
@[simp] theorem startCommand_io_din (w : Word) (s : State) : (startCommand w s).io.din = s.io.din := by rw [startCommand]
@[simp] theorem startCommand_io_dout (w : Word) (s : State) : (startCommand w s).io.dout = s.io.dout := by rw [startCommand]
@[simp] theorem startCommand_ksg (w : Word) (s : State) : (startCommand w s).ksg = s.ksg := by rw [startCommand]
@[simp] theorem startCommand_dp (w : Word) (s : State) : (startCommand w s).dp = s.dp := by rw [startCommand]
@[simp] theorem startCommand_p (w : Word) (s : State) : (startCommand w s).p = s.p := by rw [startCommand]
@[simp] theorem startCommand_host_queue (w : Word) (s : State) : (startCommand w s).host.queue = s.host.queue := by rw [startCommand]
@[simp] theorem startCommand_host_seen (w : Word) (s : State) : (startCommand w s).host.seen = s.host.seen := by rw [startCommand]
@[simp] theorem startCommand_host_draws (w : Word) (s : State) : (startCommand w s).host.draws = s.host.draws + 1 := by rw [startCommand]
@[simp] theorem startCommand_host_wait (w : Word) (s : State) : (startCommand w s).host.wait = Config.busyAccesses (Config.lat w (publicFlags s)) s.host.draws := by rw [startCommand]

/-! The reset input (R230). -/

@[simp] theorem applyReset_io (s : State) : (applyReset s).io = .reset := by rw [applyReset]
@[simp] theorem applyReset_ksg (s : State) : (applyReset s).ksg = .reset := by rw [applyReset]
@[simp] theorem applyReset_dp (s : State) : (applyReset s).dp = .reset := by rw [applyReset]
@[simp] theorem applyReset_p (s : State) : (applyReset s).p = .reset := by rw [applyReset]
@[simp] theorem applyReset_host (s : State) : (applyReset s).host = s.host := by rw [applyReset]

/-! The next operation of the HOST taken off its queue (R60). -/

@[simp] theorem popOp_io (rest : List HostOp) (s : State) : (popOp rest s).io = s.io := by rw [popOp]
@[simp] theorem popOp_ksg (rest : List HostOp) (s : State) : (popOp rest s).ksg = s.ksg := by rw [popOp]
@[simp] theorem popOp_dp (rest : List HostOp) (s : State) : (popOp rest s).dp = s.dp := by rw [popOp]
@[simp] theorem popOp_p (rest : List HostOp) (s : State) : (popOp rest s).p = s.p := by rw [popOp]
@[simp] theorem popOp_host_queue (rest : List HostOp) (s : State) : (popOp rest s).host.queue = rest := by rw [popOp]
@[simp] theorem popOp_host_seen (rest : List HostOp) (s : State) : (popOp rest s).host.seen = s.host.seen := by rw [popOp]
@[simp] theorem popOp_host_draws (rest : List HostOp) (s : State) : (popOp rest s).host.draws = s.host.draws := by rw [popOp]
@[simp] theorem popOp_host_wait (rest : List HostOp) (s : State) : (popOp rest s).host.wait = s.host.wait - 1 := by rw [popOp]

/-! A command word latched (R22). -/

@[simp] theorem latchCommand_io_lcmd (w : Word) (s : State) : (latchCommand w s).io.lcmd = w := by rw [latchCommand]
@[simp] theorem latchCommand_io_busy (w : Word) (s : State) : (latchCommand w s).io.busy = true := by rw [latchCommand]
@[simp] theorem latchCommand_io_err (w : Word) (s : State) : (latchCommand w s).io.err = s.io.err := by rw [latchCommand]
@[simp] theorem latchCommand_io_matched (w : Word) (s : State) : (latchCommand w s).io.matched = s.io.matched := by rw [latchCommand]
@[simp] theorem latchCommand_io_outlen (w : Word) (s : State) : (latchCommand w s).io.outlen = s.io.outlen := by rw [latchCommand]
@[simp] theorem latchCommand_io_din (w : Word) (s : State) : (latchCommand w s).io.din = s.io.din := by rw [latchCommand]
@[simp] theorem latchCommand_io_dout (w : Word) (s : State) : (latchCommand w s).io.dout = s.io.dout := by rw [latchCommand]
@[simp] theorem latchCommand_ksg (w : Word) (s : State) : (latchCommand w s).ksg = s.ksg := by rw [latchCommand]
@[simp] theorem latchCommand_dp (w : Word) (s : State) : (latchCommand w s).dp = s.dp := by rw [latchCommand]
@[simp] theorem latchCommand_p (w : Word) (s : State) : (latchCommand w s).p = s.p := by rw [latchCommand]
@[simp] theorem latchCommand_host_queue (w : Word) (s : State) : (latchCommand w s).host.queue = s.host.queue := by rw [latchCommand]
@[simp] theorem latchCommand_host_seen (w : Word) (s : State) : (latchCommand w s).host.seen = s.host.seen := by rw [latchCommand]
@[simp] theorem latchCommand_host_draws (w : Word) (s : State) : (latchCommand w s).host.draws = s.host.draws := by rw [latchCommand]
@[simp] theorem latchCommand_host_wait (w : Word) (s : State) : (latchCommand w s).host.wait = 0 := by rw [latchCommand]

/-! DIN given a value. -/

@[simp] theorem withDin_io_lcmd (din : Vector Byte 64) (s : State) : (withDin din s).io.lcmd = s.io.lcmd := by rw [withDin]
@[simp] theorem withDin_io_busy (din : Vector Byte 64) (s : State) : (withDin din s).io.busy = s.io.busy := by rw [withDin]
@[simp] theorem withDin_io_err (din : Vector Byte 64) (s : State) : (withDin din s).io.err = s.io.err := by rw [withDin]
@[simp] theorem withDin_io_matched (din : Vector Byte 64) (s : State) : (withDin din s).io.matched = s.io.matched := by rw [withDin]
@[simp] theorem withDin_io_outlen (din : Vector Byte 64) (s : State) : (withDin din s).io.outlen = s.io.outlen := by rw [withDin]
@[simp] theorem withDin_io_din (din : Vector Byte 64) (s : State) : (withDin din s).io.din = din := by rw [withDin]
@[simp] theorem withDin_io_dout (din : Vector Byte 64) (s : State) : (withDin din s).io.dout = s.io.dout := by rw [withDin]
@[simp] theorem withDin_ksg (din : Vector Byte 64) (s : State) : (withDin din s).ksg = s.ksg := by rw [withDin]
@[simp] theorem withDin_dp (din : Vector Byte 64) (s : State) : (withDin din s).dp = s.dp := by rw [withDin]
@[simp] theorem withDin_p (din : Vector Byte 64) (s : State) : (withDin din s).p = s.p := by rw [withDin]
@[simp] theorem withDin_host (din : Vector Byte 64) (s : State) : (withDin din s).host = s.host := by rw [withDin]

/-! The counter advance (R132) touches CTR and EXH only. -/

@[simp] theorem advance_key (k : Ksg) : (advance k).key = k.key := by unfold advance; split <;> rfl
@[simp] theorem advance_nonce (k : Ksg) : (advance k).nonce = k.nonce := by unfold advance; split <;> rfl
@[simp] theorem advance_keyed (k : Ksg) : (advance k).keyed = k.keyed := by unfold advance; split <;> rfl
@[simp] theorem advance_used (k : Ksg) : (advance k).used = k.used := by unfold advance; split <;> rfl

/-- All-zero arrays read 0. -/
@[simp] theorem zeros_getElem (w n i : Nat) (h : i < n) : (zeros w n)[i] = 0 := by simp [zeros]

/-- The zero datapath of a finished block (R112). -/
@[simp] theorem afterBlock_x (b : Vector Byte 64) : (Datapath.afterBlock b).x = zeros 32 16 := rfl
@[simp] theorem afterBlock_snap (b : Vector Byte 64) : (Datapath.afterBlock b).snap = zeros 32 16 := rfl
@[simp] theorem afterBlock_ks (b : Vector Byte 64) : (Datapath.afterBlock b).ks = b := rfl
@[simp] theorem afterBlock_seq (b : Vector Byte 64) : (Datapath.afterBlock b).seq = .idle := rfl

end Sys2Proof.Machine
end

