-- ==== Sys2Proof/Laws/Ops.lean ====
section
/-! SUPPORT. What the shared operations do: the command frame, byte order and byte strings. -/

namespace Sys2Proof.Machine

/-! The command frame (R203, R204). -/

theorem runCommand_ok {body : State → Except ErrCode State} {s t : State} (h : body (beginCommand s) = .ok t) :
    runCommand body s = .next (finishCommand .ok t) := by
  simp [runCommand, h]

theorem runCommand_error {body : State → Except ErrCode State} {s : State} {e : ErrCode}
    (h : body (beginCommand s) = .error e) :
    runCommand body s = .next (finishCommand e (beginCommand s)) := by
  simp [runCommand, raise, h]

/-- Everything the frame can do around a body. -/
theorem runCommand_cases {body : State → Except ErrCode State} {s t : State} (h : runCommand body s = .next t) :
    (∃ u, body (beginCommand s) = .ok u ∧ t = finishCommand .ok u) ∨
    (∃ e, body (beginCommand s) = .error e ∧ t = finishCommand e (beginCommand s)) := by
  cases hb : body (beginCommand s) with
  | ok u => exact .inl ⟨u, rfl, by simpa [runCommand_ok hb] using h.symm⟩
  | error e => exact .inr ⟨e, rfl, by simpa [runCommand_error hb] using h.symm⟩

/-- A command always completes (R209). -/
theorem runCommand_next (body : State → Except ErrCode State) (s : State) : ∃ t, runCommand body s = .next t := by
  cases hb : body (beginCommand s) with
  | ok u => exact ⟨_, runCommand_ok hb⟩
  | error e => exact ⟨_, runCommand_error hb⟩

/-- A raised command has written what the frame writes and nothing else (R203). -/
theorem turnedAway_raise (e : ErrCode) (s : State) : TurnedAway e s (finishCommand e (beginCommand s)) where
  frame := ⟨by simp, by simp, by simp, by simp, by simp⟩
  output := ⟨by simp, by simp, by simp⟩
  units := ⟨by simp, by simp, by simp⟩

/-! Bytes of a word (R8). -/

theorem byteAt_eq {n : Nat} (b : Vector Byte n) {i : Nat} (h : i < n) : byteAt b i = b[i] := by
  simp [byteAt, h]

theorem byteOf_toNat (w : Word) (k : Nat) : (byteOf w k).toNat = w.toNat / 2 ^ (8 * k) % 2 ^ 8 := by
  simp [byteOf, Nat.shiftRight_eq_div_pow]

theorem word32_toNat (b0 b1 b2 b3 : Byte) :
    (word32 b0 b1 b2 b3).toNat = b0.toNat + 2 ^ 8 * b1.toNat + 2 ^ 16 * b2.toNat + 2 ^ 24 * b3.toNat := by
  have h0 := b0.isLt; have h1 := b1.isLt; have h2 := b2.isLt; have h3 := b3.isLt
  simp only [word32, BitVec.toNat_ofNat]
  omega

/-- The bytes of a word made of four bytes (R8). -/
@[simp] theorem byteOf_word32_0 (b0 b1 b2 b3 : Byte) : byteOf (word32 b0 b1 b2 b3) 0 = b0 := by
  apply BitVec.eq_of_toNat_eq
  have h0 := b0.isLt
  rw [byteOf_toNat, word32_toNat]
  omega

@[simp] theorem byteOf_word32_1 (b0 b1 b2 b3 : Byte) : byteOf (word32 b0 b1 b2 b3) 1 = b1 := by
  apply BitVec.eq_of_toNat_eq
  have h0 := b0.isLt; have h1 := b1.isLt
  rw [byteOf_toNat, word32_toNat]
  omega

@[simp] theorem byteOf_word32_2 (b0 b1 b2 b3 : Byte) : byteOf (word32 b0 b1 b2 b3) 2 = b2 := by
  apply BitVec.eq_of_toNat_eq
  have h0 := b0.isLt; have h1 := b1.isLt; have h2 := b2.isLt
  rw [byteOf_toNat, word32_toNat]
  omega

@[simp] theorem byteOf_word32_3 (b0 b1 b2 b3 : Byte) : byteOf (word32 b0 b1 b2 b3) 3 = b3 := by
  apply BitVec.eq_of_toNat_eq
  have h0 := b0.isLt; have h1 := b1.isLt; have h2 := b2.isLt; have h3 := b3.isLt
  rw [byteOf_toNat, word32_toNat]
  omega

/-- A word is made of its four bytes (R53). -/
theorem word32_byteOf (w : Word) : word32 (byteOf w 0) (byteOf w 1) (byteOf w 2) (byteOf w 3) = w := by
  apply BitVec.eq_of_toNat_eq
  have h := w.isLt
  rw [word32_toNat]
  simp only [byteOf_toNat]
  omega

@[simp] theorem bytesOfWord_length (w : Word) : (bytesOfWord w).length = 4 := rfl

/-- `ST32` then `LE32` gives the word back (R8). -/
theorem leNat_bytesOfWord (w : Word) : leNat (bytesOfWord w) = w.toNat := by
  have h := w.isLt
  simp only [bytesOfWord, leNat, byteOf_toNat]
  omega

/-- `LE32` then `ST32` gives the bytes back (R8). -/
@[simp] theorem bytesOfWord_word32 (b0 b1 b2 b3 : Byte) : bytesOfWord (word32 b0 b1 b2 b3) = [b0, b1, b2, b3] := by
  simp [bytesOfWord]

theorem bytesOfWords_getElem {n m : Nat} (v : Vector Word n) (i : Nat) (h : i < m) :
    (bytesOfWords v : Vector Byte m)[i] = byteOf (v[i / 4]?.getD 0) (i % 4) := by
  simp [bytesOfWords]

/-! Byte strings (R8). -/

@[simp] theorem leNat_nil : leNat [] = 0 := rfl

@[simp] theorem leNat_cons (b : Byte) (bs : List Byte) : leNat (b :: bs) = b.toNat + 256 * leNat bs := rfl

theorem leNat_append (a b : List Byte) : leNat (a ++ b) = leNat a + 2 ^ (8 * a.length) * leNat b := by
  induction a with
  | nil => simp
  | cons x xs ih => simp [ih, Nat.mul_add, pow_add, pow_mul, Nat.mul_assoc, Nat.add_assoc, Nat.mul_left_comm]

theorem leNat_lt (b : List Byte) : leNat b < 2 ^ (8 * b.length) := by
  induction b with
  | nil => simp
  | cons x xs ih =>
    have hx : x.toNat < 256 := x.isLt
    simp only [leNat_cons, List.length_cons]
    rw [show 8 * (xs.length + 1) = 8 * xs.length + 8 by ring, pow_add]
    omega

theorem slice_length {n : Nat} (b : Vector Byte n) (lo hi : Nat) :
    (slice b lo hi).length = min (hi - lo) (n - lo) := by
  simp [slice]

end Sys2Proof.Machine
end

