-- ==== Sys2Proof/Laws/Poly.lean ====
section
/-! SUPPORT. The Poly1305 datapath as arithmetic: the digit mask is a remainder, and absorbing byte strings
composes. -/

namespace Sys2Proof.Machine

/-- The digit mask keeps the number modulo 2^26 (R161-R167). -/
theorem and_digitMask (n : Nat) : n &&& digitMask = n % 2 ^ 26 := Nat.and_two_pow_sub_one_eq_mod n 26

@[simp] theorem absorb_nil (p : P1305) : absorb p [] = p := rfl

@[simp] theorem absorb_cons (p : P1305) (b : Byte) (bs : List Byte) :
    absorb p (b :: bs) = absorb (absorbByte p b) bs := rfl

/-- Absorbing two byte strings is absorbing the one they make (R187). -/
theorem absorb_append (p : P1305) (a b : List Byte) : absorb p (a ++ b) = absorb (absorb p a) b :=
  List.foldl_append ..

@[simp] theorem absorbByte_pr (p : P1305) (b : Byte) : (absorbByte p b).pr = p.pr := by
  simp only [absorbByte]; split <;> rfl

@[simp] theorem absorbByte_ps (p : P1305) (b : Byte) : (absorbByte p b).ps = p.ps := by
  simp only [absorbByte]; split <;> rfl

@[simp] theorem absorbByte_pst (p : P1305) (b : Byte) : (absorbByte p b).pst = p.pst := by
  simp only [absorbByte]; split <;> rfl

@[simp] theorem absorb_pr (p : P1305) (bs : List Byte) : (absorb p bs).pr = p.pr := by
  induction bs generalizing p with
  | nil => rfl
  | cons b bs ih => simp [ih]

@[simp] theorem absorb_ps (p : P1305) (bs : List Byte) : (absorb p bs).ps = p.ps := by
  induction bs generalizing p with
  | nil => rfl
  | cons b bs ih => simp [ih]

@[simp] theorem absorb_pst (p : P1305) (bs : List Byte) : (absorb p bs).pst = p.pst := by
  induction bs generalizing p with
  | nil => rfl
  | cons b bs ih => simp [ih]

/-- A wiped unit shows the lifecycle state it was given (R189). -/
@[simp] theorem wiped_pst (x : Pst) : (P1305.wiped x).pst = x := rfl

end Sys2Proof.Machine
end

