-- ==== Sys2Proof/Laws/Commands.lean ====
section
/-! SUPPORT. For each command, everything its body can do (spec/41_keystream.md, spec/42_poly1305.md), and that
`exec` always answers a next state (R209). -/

namespace Sys2Proof.Machine

theorem bodyCcSetctr_cases {s : State} {r : Except ErrCode State} (h : bodyCcSetctr s = r) :
    (r = .error .orderingViolation ∧ (s.ksg.keyed = false ∨ s.ksg.used = true)) ∨
    (r = .ok { s with ksg.ctr := setCtrOperand s.io.din, ksg.exh := false } ∧
      s.ksg.keyed = true ∧ s.ksg.used = false) := by
  subst h
  unfold bodyCcSetctr
  split
  · simp_all
  · split <;> simp_all

theorem bodyCcBlock_cases {s : State} {r : Except ErrCode State} (h : bodyCcBlock s = r) :
    (r = .error .orderingViolation ∧ s.ksg.keyed = false) ∨
    (r = .error .lengthExceeded ∧ s.ksg.keyed = true ∧ s.ksg.exh = true) ∨
    (r = .ok { genBlock s with
        io.dout := blockFn s.ksg.key s.ksg.ctr s.ksg.nonce, io.outlen := 64, dp.ks := zeros 8 64 } ∧
      s.ksg.keyed = true ∧ s.ksg.exh = false) := by
  subst h
  unfold bodyCcBlock
  split
  · simp_all
  · split <;> simp_all

theorem bodyCcXor_cases {len : BitVec 7} {s : State} {r : Except ErrCode State} (h : bodyCcXor len s = r) :
    (r = .error .illegalCommand ∧ legalLen len = false) ∨
    (r = .error .orderingViolation ∧ legalLen len = true ∧ s.ksg.keyed = false) ∨
    (r = .ok s ∧ len = 0 ∧ s.ksg.keyed = true) ∨
    (r = .error .lengthExceeded ∧ legalLen len = true ∧ s.ksg.keyed = true ∧ len ≠ 0 ∧ s.ksg.exh = true) ∨
    (r = .ok (selectOutput len (genBlock s)) ∧
      legalLen len = true ∧ s.ksg.keyed = true ∧ len ≠ 0 ∧ s.ksg.exh = false) := by
  subst h
  unfold bodyCcXor
  split
  · simp_all
  · split
    · simp_all
    · split
      · simp_all
      · split <;> simp_all

theorem bodyPUpdate_cases {len : BitVec 7} {s : State} {r : Except ErrCode State} (h : bodyPUpdate len s = r) :
    (r = .error .illegalCommand ∧ legalLen len = false) ∨
    (r = .error .orderingViolation ∧ legalLen len = true ∧ s.p.pst ≠ .absorb) ∨
    (r = .ok { s with p := absorb s.p (messageOperand s.io.din len.toNat) } ∧
      legalLen len = true ∧ s.p.pst = .absorb) := by
  subst h
  unfold bodyPUpdate
  split
  · simp_all
  · split <;> simp_all

theorem bodyPFinal_cases {s : State} {r : Except ErrCode State} (h : bodyPFinal s = r) :
    (r = .error .orderingViolation ∧ s.p.pst ≠ .absorb) ∨
    (r = .ok { s with
        io.dout := tagOutput (computeTag s.p) s.io.dout, io.outlen := 16, p := P1305.wiped .spent } ∧
      s.p.pst = .absorb) := by
  subst h
  unfold bodyPFinal
  split <;> simp_all

theorem bodyPVerify_cases {s : State} {r : Except ErrCode State} (h : bodyPVerify s = r) :
    (r = .error .orderingViolation ∧ s.p.pst ≠ .absorb) ∨
    (r = .ok { s with
        io.matched := ctEq (computeTag s.p) (tagOperand s.io.din), p := P1305.wiped .spent } ∧
      s.p.pst = .absorb) := by
  subst h
  unfold bodyPVerify
  split <;> simp_all

/-- The body each command runs in the frame. -/
def bodyOf : Instr → State → Except ErrCode State
  | .ccInit => bodyCcInit
  | .ccSetctr => bodyCcSetctr
  | .ccBlock => bodyCcBlock
  | .ccXor len => bodyCcXor len
  | .ccClear => bodyCcClear
  | .pInit => bodyPInit
  | .pUpdate len => bodyPUpdate len
  | .pFinal => bodyPFinal
  | .pVerify => bodyPVerify
  | .pClear => bodyPClear

/-- Every command is its body in the frame (R204). -/
theorem exec_eq_runCommand (i : Instr) (s : State) : exec i s = runCommand (bodyOf i) s := by
  cases i <;> rfl

/-- Every command completes (R209). -/
theorem exec_next (i : Instr) (s : State) : ∃ t, exec i s = .next t := by
  rw [exec_eq_runCommand]
  exact runCommand_next _ _

end Sys2Proof.Machine
end

