-- ==== Sys2Proof/Laws/PerInstr.lean ====
section
/-! SUPPORT. Statements made per constructor of `Instr`. Family `WordFields`: the fields of a command's word
(spec/30_encoding.md R80, R84): RSV is 0, OP and LEN are the command's, and bit 4 of OP selects the unit. -/

namespace Sys2Proof.Laws.WordFields

/-- RSV, LEN and OP of the command word, and the unit bit (R80, R84). -/
def Statement (i : Instr) : Prop :=
  rsvField (encode i) = 0 ∧ lenField (encode i) = i.lenBits ∧ opField (encode i) = i.opcode ∧
    (i.opcode[4] = true ↔ i.unit = .p1305)

/-- The fields of any command word follow from its OP and LEN. -/
theorem fields (i : Instr) :
    rsvField (encode i) = 0 ∧ lenField (encode i) = i.lenBits ∧ opField (encode i) = i.opcode := by
  have ho := i.opcode.isLt
  have hl := i.lenBits.isLt
  refine ⟨?_, ?_, ?_⟩ <;> apply BitVec.eq_of_toNat_eq <;>
    simp only [encode, rsvField, lenField, opField, BitVec.extractLsb'_toNat, BitVec.ofNat_eq_ofNat,
      BitVec.toNat_ofNat,
      Nat.shiftRight_eq_div_pow] <;> omega

theorem ccInit : Statement .ccInit := ⟨(fields _).1, (fields _).2.1, (fields _).2.2, by decide⟩
theorem ccSetctr : Statement .ccSetctr := ⟨(fields _).1, (fields _).2.1, (fields _).2.2, by decide⟩
theorem ccBlock : Statement .ccBlock := ⟨(fields _).1, (fields _).2.1, (fields _).2.2, by decide⟩
theorem ccXor (len : BitVec 7) : Statement (.ccXor len) :=
  ⟨(fields _).1, (fields _).2.1, (fields _).2.2, by simp [Instr.opcode, Instr.unit]⟩
theorem ccClear : Statement .ccClear := ⟨(fields _).1, (fields _).2.1, (fields _).2.2, by decide⟩
theorem pInit : Statement .pInit := ⟨(fields _).1, (fields _).2.1, (fields _).2.2, by decide⟩
theorem pUpdate (len : BitVec 7) : Statement (.pUpdate len) :=
  ⟨(fields _).1, (fields _).2.1, (fields _).2.2, by simp [Instr.opcode, Instr.unit]⟩
theorem pFinal : Statement .pFinal := ⟨(fields _).1, (fields _).2.1, (fields _).2.2, by decide⟩
theorem pVerify : Statement .pVerify := ⟨(fields _).1, (fields _).2.1, (fields _).2.2, by decide⟩
theorem pClear : Statement .pClear := ⟨(fields _).1, (fields _).2.1, (fields _).2.2, by decide⟩

end Sys2Proof.Laws.WordFields
end

