-- ==== Sys2Proof/Laws/Window.lean ====
section
/-! SUPPORT. What a host access can do (spec/20_memory.md R52-R55, spec/70_reset_and_hazards.md R240, R241). -/

namespace Sys2Proof.Machine

/-- A served read changes no register of the CORE (R54). -/
@[simp] theorem servedRead_io (r : WinReg) (s : State) : (servedRead r s).io = s.io := by
  unfold servedRead; split <;> simp

@[simp] theorem servedRead_ksg (r : WinReg) (s : State) : (servedRead r s).ksg = s.ksg := by
  unfold servedRead; split <;> simp

@[simp] theorem servedRead_dp (r : WinReg) (s : State) : (servedRead r s).dp = s.dp := by
  unfold servedRead; split <;> simp

@[simp] theorem servedRead_p (r : WinReg) (s : State) : (servedRead r s).p = s.p := by
  unfold servedRead; split <;> simp

@[simp] theorem servedRead_queue (r : WinReg) (s : State) : (servedRead r s).host.queue = s.host.queue := by
  unfold servedRead; split <;> simp

@[simp] theorem servedRead_wait (r : WinReg) (s : State) : (servedRead r s).host.wait = s.host.wait := by
  unfold servedRead; split <;> simp

/-- A read is served, or it is an AccessFault (R52). -/
theorem memRead_cases {off : BitVec 8} {size : Nat} {s : State} {r : Result} (h : memRead off size s = r) :
    (r = .next (servedRead (regAt off) s) ∧ servedAccess off size = true) ∨
    (r = .fault .accessFault ∧ servedAccess off size = false) := by
  subst h
  unfold memRead
  split <;> simp_all

/-- Everything a write can do (R52, R55, R241). -/
theorem memWrite_cases {off : BitVec 8} {size : Nat} {v : Word} {s : State} {r : Result}
    (h : memWrite off size v s = r) :
    (r = .fault .accessFault ∧ servedAccess off size = false) ∨
    (r = .fault .hostProtocolViolation ∧ servedAccess off size = true ∧ s.io.busy = true ∧
      (regAt off = .cmd ∨ ∃ j, regAt off = .din j)) ∨
    (r = .next (startCommand v s) ∧ servedAccess off size = true ∧ s.io.busy = false ∧ regAt off = .cmd) ∨
    (∃ j, r = .next (writeDin j v s) ∧ servedAccess off size = true ∧ s.io.busy = false ∧ regAt off = .din j) ∨
    (r = .next s ∧ servedAccess off size = true ∧ regAt off ≠ .cmd ∧ ∀ j, regAt off ≠ .din j) := by
  subst h
  unfold memWrite
  split
  · cases hr : regAt off <;> cases hb : s.io.busy <;> simp_all [servedWrite]
  · simp_all

end Sys2Proof.Machine
end

