-- ==== Sys2Proof/Laws/Step.lean ====
section
/-! SUPPORT. Everything one step can do (spec/00_scope.md R11): the CORE executes the decoded command or completes an
undecodable word, or the HOST makes its next operation, or the machine idles. -/

namespace Sys2Proof.Machine

/-- The CORE's step always completes the command (R209). -/
theorem coreStep_next (s : State) : ∃ t, coreStep s = .next t := by
  unfold coreStep
  split
  · exact exec_next _ _
  · exact ⟨_, rfl⟩

theorem coreStep_cases {s t : State} (h : coreStep s = .next t) :
    (∃ i, decode s.io.lcmd = .ok i ∧ exec i s = .next t) ∨
    (∃ e, decode s.io.lcmd = .error e ∧ t = finishCommand .illegalCommand (beginCommand s)) := by
  unfold coreStep at h
  split at h
  · exact .inl ⟨_, ‹_›, h⟩
  · exact .inr ⟨_, ‹_›, by simpa [illegalCommand, raise] using h.symm⟩

@[simp] theorem pollStatus_io (s : State) : (pollStatus s).io = s.io := by
  simp only [pollStatus]; split <;> simp

@[simp] theorem pollStatus_ksg (s : State) : (pollStatus s).ksg = s.ksg := by
  simp only [pollStatus]; split <;> simp

@[simp] theorem pollStatus_dp (s : State) : (pollStatus s).dp = s.dp := by
  simp only [pollStatus]; split <;> simp

@[simp] theorem pollStatus_p (s : State) : (pollStatus s).p = s.p := by
  simp only [pollStatus]; split <;> simp

@[simp] theorem pollStatus_wait (s : State) : (pollStatus s).host.wait = s.host.wait := by
  simp only [pollStatus]; split <;> simp

theorem pollStatus_queue (s : State) :
    (pollStatus s).host.queue = if s.io.busy then .poll :: s.host.queue else s.host.queue := by
  simp only [pollStatus]; split <;> simp

@[simp] theorem pollStatus_seen_length (s : State) : (pollStatus s).host.seen.length = s.host.seen.length + 1 := by
  simp only [pollStatus, servedRead]; split <;> simp

/-! The host notation (R88): how long each expansion and its result is. -/

theorem ldinFrom_length (j : Nat) (bytes : List Byte) : (ldinFrom j bytes).length = (bytes.length + 3) / 4 := by
  induction j, bytes using ldinFrom.induct with
  | case1 => simp [ldinFrom]
  | case2 => simp [ldinFrom]
  | case3 => simp [ldinFrom]
  | case4 => simp [ldinFrom]
  | case5 j b0 b1 b2 b3 bs ih => simp [ldinFrom, ih]; omega

@[simp] theorem rdout_length (n : Nat) : (rdout n).length = (n + 3) / 4 := by simp [rdout]

theorem rdoutResult_length (n : Nat) (s : State) (h : (n + 3) / 4 ≤ s.host.seen.length) :
    (rdoutResult n s).length = n := by
  simp [rdoutResult, rdoutWords, List.length_flatMap, List.map_const', h]
  omega

/-- Everything one step can do. -/
theorem step_cases {s : State} {r : Result} (h : step s = r) :
    (coreMoves s = true ∧ coreStep s = r) ∨
    (coreMoves s = false ∧ s.host.queue = [] ∧ s.io.busy = false ∧ r = .next s) ∨
    (coreMoves s = false ∧ ∃ op rest, s.host.queue = op :: rest ∧ serveOp op (popOp rest s) = r) := by
  subst h
  unfold step
  split
  · exact .inl ⟨‹_›, rfl⟩
  · have hm : coreMoves s = false := by simpa using ‹¬coreMoves s = true›
    cases hq : s.host.queue with
    | nil => exact .inr (.inl ⟨hm, rfl, by simpa [coreMoves, hq] using hm, by simp [hostStep, hq]⟩)
    | cons op rest => exact .inr (.inr ⟨hm, op, rest, rfl, by simp [hostStep, hq]⟩)

/-- A run goes on from where its first step leads. -/
theorem run_succ {s t : State} (h : step s = .next t) (k : Nat) :
    Sys2Proof.core.run (k + 1) s = Sys2Proof.core.run k t := by
  have h' : Sys2Proof.core.step s = .next t := h
  simp only [Host.Core.run, h']

/-- With BUSY = 0 the HOST's next operation is the step. -/
theorem step_idle {s : State} {op : HostOp} {rest : List HostOp} (hb : s.io.busy = false)
    (hq : s.host.queue = op :: rest) : step s = serveOp op (popOp rest s) := by
  simp [step, coreMoves, hb, hostStep, hq]

/-- Everything one operation of the HOST can do. -/
theorem serveOp_cases {op : HostOp} {s t : State} (h : serveOp op s = .next t) :
    (∃ r, t = servedRead r s) ∨ t = pollStatus s ∨ t = applyReset s ∨
    (∃ v, t = startCommand v s ∧ s.io.busy = false) ∨
    (∃ j v, t = writeDin j v s ∧ s.io.busy = false) ∨ t = s := by
  cases op with
  | read off size =>
    rcases memRead_cases h with ⟨h1, -⟩ | ⟨h1, -⟩
    · exact .inl ⟨_, by simpa using h1⟩
    · simp at h1
  | write off size v =>
    rcases memWrite_cases h with ⟨h1, -⟩ | ⟨h1, -⟩ | ⟨h1, -, hb, -⟩ | ⟨j, h1, -, hb, -⟩ | ⟨h1, -⟩
    · simp at h1
    · simp at h1
    · exact .inr (.inr (.inr (.inl ⟨v, by simpa using h1, hb⟩)))
    · exact .inr (.inr (.inr (.inr (.inl ⟨j, v, by simpa using h1, hb⟩))))
    · exact .inr (.inr (.inr (.inr (.inr (by simpa using h1)))))
  | poll => exact .inr (.inl (by simpa [serveOp] using h.symm))
  | reset => exact .inr (.inr (.inl (by simpa [serveOp] using h.symm)))

end Sys2Proof.Machine
end

