-- ==== Sys2Proof/Tests/Slice0.lean ====
section
/-! SUPPORT. Tests. Expected values come from spec/95_test_vectors.md (the vector is named) or from a rule's own
example; then, for each obligation that has hypotheses, a witness that meets them all together. -/

namespace Sys2Proof.Tests

set_option Elab.async false

open Sys2Proof.Machine

/-! ## Helpers -/

/-- A buffer that holds a byte string from its first byte on. -/
def buf (n : Nat) (bytes : List Nat) : Vector Byte n :=
  Vector.ofFn fun i : Fin n => BitVec.ofNat 8 (bytes[i.val]?.getD 0)

/-- The state after reset with these bytes in DIN. -/
def withBytes (bytes : List Nat) (s : State) : State := withDin (buf 64 bytes) s

/-- What a check says of an outcome's next state. -/
def nextHas (r : Result) (check : State → Bool) : Bool :=
  match r with
  | .next s => check s
  | .fault _ => false
  | .refused _ => false

/-- Key bytes 00 … 1f as lanes (V-BF-1). -/
def key0 : Vector Word 8 :=
  #v[0x03020100, 0x07060504, 0x0B0A0908, 0x0F0E0D0C, 0x13121110, 0x17161514, 0x1B1A1918, 0x1F1E1D1C]

/-- The nonce of S1 as lanes (V-BF-1). -/
def nonce0 : Vector Word 3 := #v[0x09000000, 0x4A000000, 0x00000000]

/-- A keyed unit with counter c. -/
def ksgAt (c : Word) (exh used : Bool) : Ksg := ⟨key0, nonce0, c, exh, true, used⟩

/-- The machine after reset with that keyed unit. -/
def keyedAt (c : Word) (exh used : Bool) : State := { State.reset with ksg := ksgAt c exh used }

/-- The P1305 unit after P_INIT with S3's key (rule R180, example; V-P-1). -/
def p0 : P1305 :=
  { P1305.reset with
    pr := #v[0x0BED685, 0x3555502, 0x047C036, 0x1003949, 0x00806D5]
    ps := #v[0x8A800301, 0xFDB20DFB, 0xAFF6BF4A, 0x1BF54941]
    pst := .absorb }

/-- The same unit after P_UPDATE 34 over S3's message (V-P-2, block 1, and the two bytes "up" left over). -/
def p1 : P1305 :=
  { p0 with
    pa := #v[0x04B30DE, 0x3ED3A8D, 0x3FA7CCC, 0x08EC0CD, 0x2D8ADAF]
    pbuf := buf 16 [0x75, 0x70]
    pcnt := 2 }

/-- The machine after reset with this P1305 unit. -/
def poly (p : P1305) : State := { State.reset with p := p }

/-- S3's message, "Cryptographic Forum Research Group". -/
def msg : List Nat :=
  [0x43, 0x72, 0x79, 0x70, 0x74, 0x6F, 0x67, 0x72, 0x61, 0x70, 0x68, 0x69, 0x63, 0x20, 0x46, 0x6F,
   0x72, 0x75, 0x6D, 0x20, 0x52, 0x65, 0x73, 0x65, 0x61, 0x72, 0x63, 0x68, 0x20, 0x47, 0x72, 0x6F, 0x75, 0x70]

/-- S3's tag. -/
def tag0 : List Nat :=
  [0xA8, 0x06, 0x1D, 0xC1, 0x30, 0x51, 0x36, 0xC6, 0xC2, 0x2B, 0x8B, 0xAF, 0x0C, 0x01, 0x27, 0xA9]

/-! ## WellFormed refuses ill-formed terms (R81) -/

theorem test_wf_ccXor_65 : (Instr.ccXor 65).wellFormed = false := by decide
theorem test_wf_ccXor_64 : (Instr.ccXor 64).wellFormed = true := by decide
theorem test_wf_pUpdate_127 : (Instr.pUpdate 127).wellFormed = false := by decide
theorem test_wf_pUpdate_0 : (Instr.pUpdate 0).wellFormed = true := by decide

/-! ## Decoding: words written out bit by bit as RSV ++ LEN ++ OP (R80, R84) -/

theorem test_decode_ccInit : decode (0b00000000000000000#17 ++ 0b0000000#7 ++ 0b00000001#8) = .ok .ccInit := by decide
theorem test_decode_ccSetctr : decode (0b00000000000000000#17 ++ 0b0000000#7 ++ 0b00000010#8) = .ok .ccSetctr := by
  decide
theorem test_decode_ccBlock : decode (0b00000000000000000#17 ++ 0b0000000#7 ++ 0b00000011#8) = .ok .ccBlock := by decide
theorem test_decode_ccXor : decode (0b00000000000000000#17 ++ 0b0111111#7 ++ 0b00000100#8) = .ok (.ccXor 63) := by
  decide
theorem test_decode_ccClear : decode (0b00000000000000000#17 ++ 0b0000000#7 ++ 0b00000101#8) = .ok .ccClear := by decide
theorem test_decode_pInit : decode (0b00000000000000000#17 ++ 0b0000000#7 ++ 0b00010001#8) = .ok .pInit := by decide
theorem test_decode_pUpdate : decode (0b00000000000000000#17 ++ 0b1000000#7 ++ 0b00010010#8) = .ok (.pUpdate 64) := by
  decide
theorem test_decode_pFinal : decode (0b00000000000000000#17 ++ 0b0000000#7 ++ 0b00010011#8) = .ok .pFinal := by decide
theorem test_decode_pVerify : decode (0b00000000000000000#17 ++ 0b0000000#7 ++ 0b00010100#8) = .ok .pVerify := by decide
theorem test_decode_pClear : decode (0b00000000000000000#17 ++ 0b0000000#7 ++ 0b00010101#8) = .ok .pClear := by decide
theorem test_decode_len_65 : decode (0b00000000000000000#17 ++ 0b1000001#7 ++ 0b00010010#8) = .error .illegalLen := by
  decide
theorem test_decode_rsv : decode (0b10000000000000000#17 ++ 0b0000000#7 ++ 0b00000001#8) = .error .reservedBitSet := by
  decide
theorem test_decode_op_10 : decode (0b00000000000000000#17 ++ 0b0000000#7 ++ 0b00010000#8) = .error .unknownOpcode := by
  decide
theorem test_table_word_short : decodeTableWord 8 0x12 = some (.pUpdate 0) := by decide

/-! ## Datapaths (V-ADD, V-QR, V-BF, V-P) -/

/-- V-ADD. -/
theorem test_rotl_12 : rotl 0x12345678 12 = 0x45678123 := by decide
/-- V-QR, the example of rule R103. -/
theorem test_qr_example : quarterRound 0x11111111 0x01020304 0x9B8D6F43 0x01234567
    = (0xEA2A92F4, 0xCB1CF8CE, 0x4581472E, 0x5881C4BB) := by decide
/-- V-QR, all ones. -/
theorem test_qr_ones : quarterRound 0xFFFFFFFF 0xFFFFFFFF 0xFFFFFFFF 0xFFFFFFFF
    = (0xF0000FFD, 0x88790878, 0x0110FDEF, 0x010FFDF0) := by decide
/-- V-BF-2, after one double round. -/
theorem test_double_round : (doubleRound (initState key0 1 nonce0)).toList =
    [0xCD52E917, 0x85AB03B4, 0xB3457395, 0xF96DE7DD, 0xC4B7CD22, 0x5C2E187A, 0xC95EB461, 0x316C801A,
     0x7BF7D740, 0x7EDDD644, 0xF1A1BDF5, 0x761246CA, 0x6B0D58A3, 0x6798471A, 0xD737F167, 0xF173888D] := by
  decide +kernel
/-- V-BF-2, the lanes after the feed-forward. -/
theorem test_feed_forward :
    (feedForward (doubleRounds 10 (initState key0 1 nonce0)) (initState key0 1 nonce0)).toList =
    [0xE4E7F110, 0x15593BD1, 0x1FDD0F50, 0xC47120A3, 0xC7F4D1C7, 0x0368C033, 0x9AAA2204, 0x4E6CD4C3,
     0x466482D2, 0x09AA9F07, 0x05D7C214, 0xA2028BD9, 0xD19C12B5, 0xB94E16DE, 0xE883D0CB, 0x4E3C50A2] := by
  decide +kernel
/-- V-P-2, the first block of S3. -/
theorem test_poly_block : (polyBlock (zeros 32 5) p0.pr (buf 16 (msg.take 16)) true).toList =
    [0x29C83FC, 0x37AE239, 0x2E9147D, 0x2127592, 0x2C88C77] := by decide +kernel
/-- V-P-4, row "r = 2, s = 0, m = ff×16": the subtraction of p is taken. -/
theorem test_poly_subtraction :
    (polyFinish (polyBlock (zeros 32 5) #v[2, 0, 0, 0, 0] (Vector.replicate 16 0xFF) true) (zeros 32 4)).toList =
    [3, 0, 0, 0, 0, 0, 0, 0, 0, 0, 0, 0, 0, 0, 0, 0] := by decide +kernel
/-- V-P-4, row "r = 2, s = ff×16, m = ff×16": the carries of the tag sum (C6). -/
theorem test_poly_tag_carry :
    (polyFinish (polyBlock (zeros 32 5) #v[2, 0, 0, 0, 0] (Vector.replicate 16 0xFF) true)
      #v[0xFFFFFFFF, 0xFFFFFFFF, 0xFFFFFFFF, 0xFFFFFFFF]).toList =
    [2, 0, 0, 0, 0, 0, 0, 0, 0, 0, 0, 0, 0, 0, 0, 0] := by decide +kernel
/-- R160 on S3: the integer form gives the same tag, 0xa927…06a8 (V-P-3). -/
theorem test_poly_integer :
    (polyAcc 0x0806D5400E52447C036D555408BED685 (msg.map (BitVec.ofNat 8)) + 0x1BF54941AFF6BF4AFDB20DFB8A800301)
      % 2 ^ 128 = 0xA927010CAF8B2BC2C6365130C11D06A8 := by decide +kernel

/-! ## The commands -/

/-- The DIN of rule R134's example. -/
def initBytes : List Nat :=
  List.range 32 ++ [0, 0, 0, 9, 0, 0, 0, 0x4A, 0, 0, 0, 0] ++ [1, 0, 0, 0]

/-- R134, example; V-KS-1. -/
theorem test_ccInit : nextHas (exec .ccInit (withBytes initBytes State.reset)) (fun s =>
    s.ksg.key == key0 && s.ksg.nonce == nonce0 && s.ksg.ctr == 1 && ccFlagsWord s.ksg == 1) = true := by
  decide +kernel
/-- R135, example. -/
theorem test_ccSetctr : nextHas (exec .ccSetctr (withBytes [1] (keyedAt 0 false false))) (fun s =>
    s.ksg.ctr == 1 && statusWord s.io == 0 && ccFlagsWord s.ksg == 1) = true := by decide +kernel
/-- V-KS-3, fifth row: CC_SETCTR after a block. -/
theorem test_ccSetctr_used : nextHas (exec .ccSetctr (withBytes [9] (keyedAt 2 false true))) (fun s =>
    s.ksg.ctr == 2 && statusWord s.io == 0x20) = true := by decide +kernel
/-- V-KS-1: DOUT is V-BF-3. -/
theorem test_ccBlock : nextHas (exec .ccBlock (keyedAt 1 false false)) (fun s =>
    s.io.dout == buf 64
      [0x10, 0xF1, 0xE7, 0xE4, 0xD1, 0x3B, 0x59, 0x15, 0x50, 0x0F, 0xDD, 0x1F, 0xA3, 0x20, 0x71, 0xC4,
       0xC7, 0xD1, 0xF4, 0xC7, 0x33, 0xC0, 0x68, 0x03, 0x04, 0x22, 0xAA, 0x9A, 0xC3, 0xD4, 0x6C, 0x4E,
       0xD2, 0x82, 0x64, 0x46, 0x07, 0x9F, 0xAA, 0x09, 0x14, 0xC2, 0xD7, 0x05, 0xD9, 0x8B, 0x02, 0xA2,
       0xB5, 0x12, 0x9C, 0xD1, 0xDE, 0x16, 0x4E, 0xB9, 0xCB, 0xD0, 0x83, 0xE8, 0xA2, 0x50, 0x3C, 0x4E] &&
    statusWord s.io == 0x00400000 && s.ksg.ctr == 2 && ccFlagsWord s.ksg == 3) = true := by decide +kernel
/-- V-KS-5, fifth row: CC_BLOCK on the exhausted unit. -/
theorem test_ccBlock_exhausted : nextHas (exec .ccBlock (keyedAt 0 true true)) (fun s =>
    statusWord s.io == 0x10 && s.ksg.ctr == 0 && ccFlagsWord s.ksg == 7) = true := by decide +kernel
/-- V-KS-5, third row: the last block, first 4 bytes of V-BF-7. -/
theorem test_ccXor_last : nextHas (exec (.ccXor 4) (keyedAt 0xFFFFFFFF false true)) (fun s =>
    s.io.dout == buf 64 [0xFF, 0x29, 0x41, 0xB8] && statusWord s.io == 0x00040000 && s.ksg.ctr == 0 &&
    ccFlagsWord s.ksg == 7) = true := by decide +kernel
/-- V-KS-8, the end of S2's ciphertext: byte 49 of the second command is 0x4d, byte 50 is 0. -/
theorem test_ccXor_50 : nextHas (exec (.ccXor 50) (withBytes (List.replicate 48 0 ++ [0x74, 0x2E, 0xFF])
    { State.reset with ksg := ⟨key0, #v[0, 0x4A000000, 0], 2, false, true, true⟩ })) (fun s =>
    byteAt s.io.dout 48 == 0x87 && byteAt s.io.dout 49 == 0x4D && byteAt s.io.dout 50 == 0 && s.ksg.ctr == 3) =
    true := by decide +kernel
/-- R145, example. -/
theorem test_ccClear : nextHas (exec .ccClear (keyedAt 5 false true)) (fun s =>
    s.ksg == Ksg.reset && ccFlagsWord s.ksg == 0) = true := by decide +kernel
/-- V-KS-4: CC_BLOCK on an unkeyed unit. -/
theorem test_unkeyed : nextHas (exec .ccBlock State.reset) (fun s => statusWord s.io == 0x20) = true := by
  decide +kernel
/-- R180, example; V-PC-1. -/
theorem test_pInit : nextHas (exec .pInit (withBytes
    [0x85, 0xD6, 0xBE, 0x78, 0x57, 0x55, 0x6D, 0x33, 0x7F, 0x44, 0x52, 0xFE, 0x42, 0xD5, 0x06, 0xA8,
     0x01, 0x03, 0x80, 0x8A, 0xFB, 0x0D, 0xB2, 0xFD, 0x4A, 0xBF, 0xF6, 0xAF, 0x41, 0x49, 0xF5, 0x1B] State.reset))
    (fun s => s.p == p0 && pFlagsWord s.p == 1) = true := by decide +kernel
/-- R181, example; V-P-2, V-PC-1. -/
theorem test_pUpdate : nextHas (exec (.pUpdate 34) (withBytes msg (poly p0))) (fun s =>
    s.p == p1 && pFlagsWord s.p == 0x201) = true := by decide +kernel
/-- R188: a spent unit refuses even P_UPDATE 0. -/
theorem test_pUpdate_spent : nextHas (exec (.pUpdate 0) (poly (P1305.wiped .spent))) (fun s =>
    statusWord s.io == 0x20) = true := by decide +kernel
/-- R183, example; S3. -/
theorem test_pFinal : nextHas (exec .pFinal (poly p1)) (fun s =>
    s.io.dout == buf 64 tag0 && statusWord s.io == 0x00100000 && pFlagsWord s.p == 2) = true := by decide +kernel
/-- V-P-4, the empty message: the tag is s. -/
theorem test_pFinal_empty : nextHas (exec .pFinal (poly p0)) (fun s =>
    s.io.dout == buf 64 [0x01, 0x03, 0x80, 0x8A, 0xFB, 0x0D, 0xB2, 0xFD, 0x4A, 0xBF, 0xF6, 0xAF, 0x41, 0x49, 0xF5,
      0x1B]) = true := by decide +kernel
/-- R184, example. -/
theorem test_pVerify : nextHas (exec .pVerify (withBytes tag0 (poly p1))) (fun s =>
    statusWord s.io == 0x100 && pFlagsWord s.p == 2) = true := by decide +kernel
/-- R184, example: the last byte changed to A8. -/
theorem test_pVerify_mismatch : nextHas (exec .pVerify (withBytes (tag0.take 15 ++ [0xA8]) (poly p1))) (fun s =>
    statusWord s.io == 0 && s.io.dout == zeros 8 64 && pFlagsWord s.p == 2) = true := by decide +kernel
/-- R186, example. -/
theorem test_pClear : nextHas (exec .pClear (poly p1)) (fun s => pFlagsWord s.p == 0 && s.p == P1305.reset) = true := by
  decide +kernel

/-! ## The window and the step -/

/-- R53: the word 0x04030201 written to DIN word 15 is bytes 60 to 63. -/
theorem test_din_order : nextHas (memWrite 0x7C 4 0x04030201 State.reset) (fun s =>
    byteAt s.io.din 60 == 1 && byteAt s.io.din 63 == 4 && byteAt s.io.din 59 == 0) = true := by decide +kernel
/-- R52: a 16-bit read, and a read at an odd offset. -/
theorem test_access_fault : memRead 0x04 2 State.reset = .fault .accessFault ∧
    memRead 0x05 4 State.reset = .fault .accessFault := ⟨rfl, rfl⟩
/-- R241: a DIN write while BUSY = 1. -/
theorem test_busy_write : memWrite 0x40 4 0 (latchCommand 1 State.reset) = .fault .hostProtocolViolation := rfl
/-- R84, R204: the machine after reset with P_INIT's word latched runs P_INIT. -/
theorem test_step_fetch : nextHas (step (State.reset.withFetchWord 32 0x11)) (fun s =>
    s.p.pst == .absorb && !s.io.busy) = true := by decide +kernel
/-- R85: with the word 0x00000000 latched, IllegalCommand. -/
theorem test_step_illegal : nextHas (step (State.reset.withFetchWord 32 0)) (fun s =>
    statusWord s.io == 0x40) = true := by decide +kernel
/-- R88: LDIN of five bytes fills up the second word with 0x00 bytes. -/
theorem test_ldin : ldin [1, 2, 3, 4, 5] = [wr 0x40 0x04030201, wr 0x44 0x00000005] := by decide +kernel
/-- R88: RDOUT 16 is four reads, from 0x80 to 0x8C. -/
theorem test_rdout : rdout 16 = [rd 0x80, rd 0x84, rd 0x88, rd 0x8C] := by decide +kernel

/-- R88: RDOUT 5 over the reads dout_0 = 0x04030201, dout_1 = 0xAABBCC05, made after a read of 0xFFFFFFFF. -/
theorem test_rdout_result : rdoutResult 5 { State.reset with
    host.seen := [0xAABBCC05, 0x04030201, 0xFFFFFFFF] } = [1, 2, 3, 4, 5] := by decide +kernel

/-! ## Witnesses: states and operands that meet the hypotheses of each obligation -/

theorem witness_AdderAndRotator : (7 : Nat) ∈ [16, 12, 8, 7] := by decide

theorem witness_QuarterRoundOnLanes : ∃ (x : Vector Word 16) (i j k l : Fin 16), [i, j, k, l].Nodup ∧
    x[2] = 0x516461B1 ∧ x[7] = 0x2A5F714C ∧ x[8] = 0x53372767 ∧ x[13] = 0x3D631689 :=
  ⟨#v[0, 0, 0x516461B1, 0, 0, 0, 0, 0x2A5F714C, 0x53372767, 0, 0, 0, 0, 0x3D631689, 0, 0], 2, 7, 8, 13, by decide⟩

theorem witness_HalfRoundOrderFree : ∃ gs : List LaneGroup, gs ≠ halfGroups .column ∧ gs.Perm (halfGroups .column) :=
  ⟨(halfGroups .column).reverse, by decide, List.reverse_perm _⟩

/-- CC_INIT with start counter 0xFFFFFFFF. -/
theorem witness_CcInitLoadsState : ∃ s : State, le32 s.io.din 44 = 0xFFFFFFFF :=
  ⟨withBytes (List.replicate 64 0xFF) State.reset, by decide +kernel⟩

theorem witness_CcSetctrSetsCounter : ∃ s u : State, (s.ksg.keyed = true ∧ s.ksg.used = false) ∧
    (u.ksg.keyed = false ∨ u.ksg.used = true) :=
  ⟨keyedAt 0 false false, keyedAt 2 false true, by decide⟩

theorem witness_CcBlockOutputsBlock : ∃ s u v w : State, (s.ksg.keyed = true ∧ s.ksg.exh = false) ∧
    u.ksg.keyed = false ∧ (v.ksg.keyed = true ∧ v.ksg.exh = true) ∧ w.io.din = zeros 8 64 :=
  ⟨keyedAt 0xFFFFFFFF false false, State.reset, keyedAt 0 true true, State.reset, by decide⟩

/-- LEN 1, 64 and 0; unkeyed; exhausted. -/
theorem witness_CcXorOutputsChunk : ∃ (l m n : BitVec 7) (s u v : State),
    (1 ≤ l.toNat ∧ l.toNat ≤ 64 ∧ 1 ≤ m.toNat ∧ m.toNat ≤ 64 ∧ s.ksg.keyed = true ∧ s.ksg.exh = false) ∧
    n = 0 ∧ n.toNat ≤ 64 ∧ u.ksg.keyed = false ∧ (v.ksg.keyed = true ∧ v.ksg.exh = true) :=
  ⟨1, 64, 0, keyedAt 1 false false, State.reset, keyedAt 0 true true, by decide⟩

theorem witness_CounterAdvances : ∃ (k k' : Ksg) (s : State) (len : BitVec 7),
    (k.exh = false ∧ k.ctr = 0xFFFFFFFF) ∧ (k'.exh = false ∧ k'.ctr ≠ 0xFFFFFFFF) ∧
    s.ksg.keyed = true ∧ s.ksg.exh = false ∧ 1 ≤ len.toNat ∧ len.toNat ≤ 64 :=
  ⟨ksgAt 0xFFFFFFFF false true, ksgAt 0xFFFFFFFE false true, keyedAt 0 false false, 64, by decide⟩

theorem ksgInv_keyedAt : KsgInv (ksgAt 0xFFFFFFFF false true) :=
  ⟨by decide, by decide, by decide, by decide⟩

theorem witness_CounterNeverWraps : ∃ (i : Instr) (s t : State), KsgInv s.ksg ∧ exec i s = .next t ∧
    i ≠ .ccInit ∧ i ≠ .ccSetctr ∧ i ≠ .ccClear := by
  obtain ⟨t, ht⟩ := exec_next .ccBlock (keyedAt 0xFFFFFFFF false true)
  exact ⟨.ccBlock, _, t, ksgInv_keyedAt, ht, by decide⟩

/-- An exhausted unit with CC_CLEAR latched: the step leaves EXH = 1. -/
theorem witness_ExhaustedUnitRefuses : ∃ s t : State, s.ksg.keyed = true ∧ step s = .next t ∧ s.ksg.exh = true ∧
    t.ksg.exh = false :=
  ⟨latchCommand 5 (keyedAt 0 true true), _, rfl, rfl, rfl, rfl⟩

/-- Two chunks, of 1 and 64 bytes, at the last two counters. -/
theorem witness_StreamOfChunks : ∃ (s : State) (cs : List Chunk), s.ksg.keyed = true ∧
    (∀ c ∈ cs, 1 ≤ c.2.toNat ∧ c.2.toNat ≤ 64) ∧ c33 s.ksg + cs.length = 2 ^ 32 :=
  ⟨keyedAt 0xFFFFFFFE false false, [(zeros 8 64, 1), (zeros 8 64, 64)], by decide⟩

theorem witness_StreamInvolution : ∃ (s s' : State) (cs cs' : List Chunk) (t : State) (outs : List (List Byte)),
    s.ksg.keyed = true ∧ s'.ksg = s.ksg ∧ (∀ c ∈ cs, 1 ≤ c.2.toNat ∧ c.2.toNat ≤ 64) ∧
    c33 s.ksg + cs.length ≤ 2 ^ 32 ∧ xorAll s cs = some (t, outs) ∧ cs'.map chunkBytes = outs ∧
    ∀ c ∈ cs', 1 ≤ c.2.toNat ∧ c.2.toNat ≤ 64 := by
  let s := keyedAt 1 false false
  let c : Chunk := (zeros 8 64, 1)
  let t := match exec (.ccXor 1) (withDin c.1 s) with
    | .next t => t
    | .fault _ => s
    | .refused _ => s
  exact ⟨s, s, [c], [(buf 64 [0x10], 1)], t, [[0x10]], rfl, rfl, by decide, by decide, by decide +kernel,
    by decide +kernel, by decide⟩

/-- A unit that meets its invariant with 15 bytes buffered. -/
def p15 : P1305 := { p0 with pbuf := buf 16 (msg.take 15), pcnt := 15 }

theorem p15_inv : P1305Inv p15 where
  r_bounds := ⟨by decide, by decide, by decide, by decide, by decide⟩
  a_bounds := ⟨by decide, by decide, by decide, by decide, by decide⟩
  pcnt_le := by decide
  tail_zero := by decide
  held_only_absorbing := by decide

theorem p0_inv : P1305Inv p0 where
  r_bounds := ⟨by decide, by decide, by decide, by decide, by decide⟩
  a_bounds := ⟨by decide, by decide, by decide, by decide, by decide⟩
  pcnt_le := by decide
  tail_zero := by decide
  held_only_absorbing := by decide

/-- LEN 64 and 0 on a unit with 15 bytes buffered; a unit that is not absorbing. -/
theorem witness_PUpdateAbsorbs : ∃ (len len' : BitVec 7) (s u : State), (len.toNat = 64 ∧ len'.toNat = 0) ∧
    s.p.pst = .absorb ∧ P1305Inv s.p ∧ u.p.pst ≠ .absorb :=
  ⟨64, 0, poly p15, State.reset, by decide, rfl, p15_inv, by decide⟩

theorem witness_PFinalOutputsTag : ∃ s u v : State, (s.p.pst = .absorb ∧ P1305Inv s.p ∧ s.p.pcnt = 15) ∧
    (u.p.pst = .absorb ∧ P1305Inv u.p ∧ u.p.pa = zeros 32 5 ∧ u.p.pcnt = 0) ∧ v.p.pst ≠ .absorb :=
  ⟨poly p15, poly p0, State.reset, ⟨rfl, p15_inv, rfl⟩, ⟨rfl, p0_inv, rfl, rfl⟩, by decide⟩

theorem witness_PVerifyCompares : ∃ s u : State, s.p.pst = .absorb ∧ u.p.pst ≠ .absorb :=
  ⟨poly p1, poly (P1305.wiped .spent), by decide⟩

theorem witness_PClearWipes : ∃ len : BitVec 7, len.toNat ≤ 64 := ⟨64, by decide⟩

theorem witness_ClampedLimbs : ∃ b : List Byte, b.length = 16 := ⟨List.replicate 16 0xFF, by decide⟩

/-- Limbs at the bounds of R161 and R170. -/
theorem witness_PolyBlockCongruence : ∃ pa pr : Vector Word 5, ABounds pa ∧ RBounds pr :=
  ⟨#v[0x3FFFFFF, 0x4000025, 0x3FFFFFF, 0x3FFFFFF, 0x3FFFFFF], #v[0x3FFFFFF, 0x3FFFF03, 0x3FFC0FF, 0x3F03FFF, 0x00FFFFF],
    ⟨by decide, by decide, by decide, by decide, by decide⟩, ⟨by decide, by decide, by decide, by decide, by decide⟩⟩

theorem witness_PolyFinishTag : ∃ pa : Vector Word 5, ABounds pa :=
  ⟨#v[0x3FFFFFF, 0x4000025, 0x3FFFFFF, 0x3FFFFFF, 0x3FFFFFF],
    ⟨by decide, by decide, by decide, by decide, by decide⟩⟩

theorem witness_MessageTagIsInteger : ∃ cs : List Chunk, cs ≠ [] ∧ ∀ c ∈ cs, c.2.toNat ≤ 64 :=
  ⟨[(buf 64 msg, 34), (zeros 8 64, 0), (zeros 8 64, 64)], by decide, by decide⟩

/-- The partitions 34 and 16 + 18 of S3's message (V-PC-2). -/
theorem witness_ChunkingInvariance : ∃ (s : State) (cs cs' : List Chunk), s.p.pst = .absorb ∧
    (∀ c ∈ cs, c.2.toNat ≤ 64) ∧ (∀ c ∈ cs', c.2.toNat ≤ 64) ∧ cs ≠ cs' ∧ messageOf cs = messageOf cs' :=
  ⟨poly p0, [(buf 64 msg, 34)], [(buf 64 msg, 16), (buf 64 (msg.drop 16), 18)], rfl, by decide, by decide,
    by decide +kernel, by decide +kernel⟩

theorem witness_LifecycleTransitions : ∃ (i : Instr) (s u : State), i.wellFormed = true ∧ s.p.pst = .absorb ∧
    u.p.pst ≠ .absorb :=
  ⟨.pUpdate 64, poly p0, State.reset, by decide⟩

/-- Each error occurs: an illegal word; an unkeyed unit; an exhausted unit. -/
theorem witness_ErrorConditions :
    nextHas (coreStep (latchCommand 0 State.reset)) (fun t => t.io.err == .illegalCommand) = true ∧
    nextHas (coreStep (latchCommand 3 State.reset)) (fun t => t.io.err == .orderingViolation) = true ∧
    nextHas (coreStep (latchCommand 0x104 (keyedAt 0 true true))) (fun t => t.io.err == .lengthExceeded) = true := by
  decide +kernel

theorem witness_ErrorsChangeNoUnit : ∃ s t : State, coreStep s = .next t ∧ t.io.err ≠ .ok :=
  ⟨latchCommand 0 State.reset, _, rfl, by decide⟩

theorem witness_DinLifecycle : ∃ s : State, s.io.busy = false := ⟨State.reset, rfl⟩

theorem witness_AuthFailNever : ∃ s : State, s.p.pst = .absorb ∧ computeTag s.p ≠ tagOperand s.io.din :=
  ⟨poly p1, by decide +kernel⟩

/-- Two contents of DIN that differ from byte 48 on. -/
theorem witness_UnlistedDinIgnored : ∃ (s : State) (din : Vector Byte 64), din ≠ s.io.din ∧
    ∀ k : Fin 64, k.val < operandBytes .ccInit → din[k] = s.io.din[k] :=
  ⟨State.reset, buf 64 (List.replicate 48 0 ++ [1]), by decide +kernel⟩

/-- Every aligned offset where two of the ranges meet falls under the clause it should. -/
theorem witness_IdleReads : ∃ s : State, s.io.busy = false ∧
    (∀ off ∈ [0x00, 0x04, 0x08, 0x0C, 0x10, 0x14, 0x3C, 0x40, 0x7C, 0x80, 0xBC, 0xC0, (0xFC : BitVec 8)],
      off.toNat % 4 = 0) := ⟨State.reset, rfl, by decide⟩

theorem witness_IdleWrites : ∃ s : State, s.io.busy = false ∧
    (∀ off ∈ [0x40, (0x7C : BitVec 8)], off.toNat % 4 = 0 ∧ 0x40 ≤ off.toNat ∧ off.toNat < 0x80) ∧
    (∀ off ∈ [0x04, 0x3C, 0x80, (0xFC : BitVec 8)],
      off.toNat % 4 = 0 ∧ off ≠ 0x00 ∧ ¬(0x40 ≤ off.toNat ∧ off.toNat < 0x80)) :=
  ⟨State.reset, rfl, by decide, by decide⟩

theorem witness_WindowByteOrder : ∃ s : State, s.io.busy = false := ⟨State.reset, rfl⟩

theorem witness_BusyReads : ∃ s : State, s.io.busy = true ∧
    (∀ off ∈ [0x04, 0x08, 0x0C, 0x10, 0x80, 0xBC, 0x00, 0x14, 0x7C, 0xC0, (0xFC : BitVec 8)], off.toNat % 4 = 0) :=
  ⟨latchCommand 1 State.reset, rfl, by decide⟩

theorem witness_BusyWrites : ∃ s : State, s.io.busy = true ∧
    (∀ off ∈ [0x00, 0x40, (0x7C : BitVec 8)], off.toNat % 4 = 0 ∧
      (off.toNat = 0x00 ∨ (0x40 ≤ off.toNat ∧ off.toNat < 0x80))) ∧
    (∀ off ∈ [0x04, 0x3C, 0x80, (0xFC : BitVec 8)], off.toNat % 4 = 0 ∧
      off.toNat ≠ 0x00 ∧ ¬(0x40 ≤ off.toNat ∧ off.toNat < 0x80)) :=
  ⟨latchCommand 1 State.reset, rfl, by decide, by decide⟩

theorem witness_CommandStarts : ∃ (s : State) (w w' : Word) (i : Instr) (e : DecodeError), s.io.busy = false ∧
    decode w = .ok i ∧ decode w' = .error e :=
  ⟨State.reset, 0x00000001, 0x00000000, .ccInit, .unknownOpcode, by decide⟩

theorem witness_ParametersAndPlacement : ∃ addr : Nat, addr < Config.base ∨ Config.base + 256 ≤ addr :=
  ⟨Config.base + 256, .inr (Nat.le_refl _)⟩

/-- A command due with an empty queue; one due with operations left; an illegal word; an operation to be served while
idle and while busy; nothing to do. -/
theorem witness_StepRunsDecoded : ∃ s u v w x : State,
    (s.io.busy = true ∧ s.host.queue = [] ∧ decode s.io.lcmd = .ok .pInit) ∧
    (u.io.busy = true ∧ u.host.queue ≠ [] ∧ u.host.wait = 0 ∧ decode u.io.lcmd = .error .unknownOpcode) ∧
    (v.host.queue = [.poll] ∧ v.io.busy = false) ∧ (w.host.queue = [.poll] ∧ w.host.wait ≠ 0) ∧
    (x.io.busy = false ∧ x.host.queue = []) :=
  ⟨latchCommand 0x11 State.reset, latchCommand 0 { State.reset with host.queue := [.poll] },
    { State.reset with host.queue := [.poll] },
    { latchCommand 1 State.reset with host.queue := [.poll], host.wait := 3 }, State.reset, by decide⟩

theorem witness_FetchWordRuns : (Instr.ccXor 64).wellFormed = true := by decide

theorem witness_ResetValues : ∃ off : BitVec 8, off.toNat % 4 = 0 := ⟨0xFC, by decide⟩

/-- A reset while a command is in flight. -/
theorem witness_ResetWipes : ∃ (s : State) (rest : List HostOp), coreMoves s = false ∧ s.io.busy = true ∧
    s.host.queue = .reset :: rest :=
  ⟨{ latchCommand 3 (keyedAt 1 false false) with host.queue := [.reset, .poll], host.wait := 1 }, [.poll], by decide⟩

theorem reset_inv : Inv State.reset where
  io := ⟨by decide, by decide, by decide, by decide, by decide⟩
  ksg := ⟨by decide, by decide, by decide, by decide⟩
  dp := ⟨by decide, by decide, by decide, by decide, by decide⟩
  p :=
    { r_bounds := ⟨by decide, by decide, by decide, by decide, by decide⟩
      a_bounds := ⟨by decide, by decide, by decide, by decide, by decide⟩
      pcnt_le := by decide
      tail_zero := by decide
      held_only_absorbing := by decide }

/-- A state that holds secrets and a command in flight meets the invariant. -/
theorem witness_StepKeepsInvariant : ∃ s t : State, Inv s ∧ s.io.busy = true ∧ step s = .next t := by
  let s : State := latchCommand 3 { keyedAt 0xFFFFFFFF false true with p := p15 }
  obtain ⟨t, ht⟩ := coreStep_next s
  exact ⟨s, t, ⟨⟨by decide, by decide, by decide, by decide, by decide⟩, ksgInv_keyedAt, reset_inv.dp, p15_inv⟩, rfl,
    by simpa [step, show coreMoves s = true from rfl] using ht⟩

theorem witness_CommandFinishes : ∃ s : State, s.io.busy = true ∧ s.host.wait = 2 ∧ PoliteHost s :=
  ⟨{ latchCommand 1 State.reset with host.queue := [.poll], host.wait := 2 }, rfl, rfl, by
    unfold PoliteHost; decide⟩

theorem witness_PoliteHostNeverStops : ∃ s : State, s.host.queue.length = 16 ∧ PoliteHost s :=
  ⟨{ State.reset with host.queue := xcmd .ccInit (List.replicate 48 1) ++ [rd 0x08, .reset] }, by decide +kernel, by
    unfold PoliteHost; decide +kernel⟩

theorem witness_ResultsPersist : ∃ s t : State, coreMoves s = false ∧ ¬resetNext s ∧ step s = .next t :=
  ⟨{ State.reset with host.queue := [wr 0x40 1] }, _, rfl, by simp [resetNext, wr], rfl⟩

theorem witness_KeyNonceConstant : ∃ s t : State, step s = .next t ∧
    (t.ksg.key ≠ s.ksg.key ∨ t.ksg.nonce ≠ s.ksg.nonce) :=
  ⟨latchCommand 5 (keyedAt 0 false false), _, rfl, by decide⟩

/-- KEYED cleared by CC_CLEAR; MATCH set by P_VERIFY (r = s = 0, nothing absorbed, DIN the tag 0); MATCH cleared by the
start of P_CLEAR. -/
theorem witness_FlagWriters : ∃ s t u v w x : State,
    (step s = .next t ∧ s.ksg.keyed = true ∧ t.ksg.keyed = false) ∧
    (step u = .next v ∧ u.io.matched = false ∧ v.io.matched = true) ∧
    (step w = .next x ∧ w.io.matched = true ∧ x.io.matched = false) :=
  ⟨latchCommand 5 (keyedAt 0 false false), _, latchCommand 0x14 (poly { P1305.reset with pst := .absorb }), _,
    latchCommand 0x15 { State.reset with io.matched := true }, _,
    ⟨rfl, rfl, rfl⟩, ⟨rfl, rfl, by decide +kernel⟩, ⟨rfl, rfl, rfl⟩⟩

/-- Two states that differ in KEY, with a read to be made; and with a command due. -/
theorem witness_HostCannotReadSecrets : ∃ s t : State, s ≠ t ∧ PublicEq s t ∧ coreMoves s = false :=
  ⟨{ keyedAt 1 false false with host.queue := [rd 0x80] },
    { State.reset with ksg := { Ksg.reset with ctr := 1, keyed := true }, host.queue := [rd 0x80] },
    by decide +kernel, ⟨rfl, rfl, rfl, rfl, rfl, rfl, rfl, rfl, rfl, rfl, rfl, rfl, rfl⟩, rfl⟩

theorem witness_CommandControlPublic : ∃ s t : State, s ≠ t ∧ PublicEq s t ∧ coreMoves s = true :=
  ⟨latchCommand 3 (keyedAt 1 false false),
    latchCommand 3 { State.reset with ksg := { Ksg.reset with ctr := 1, keyed := true } },
    by decide +kernel, ⟨rfl, rfl, rfl, rfl, rfl, rfl, rfl, rfl, rfl, rfl, rfl, rfl, rfl⟩, rfl⟩

/-- RDOUT 64 and RDOUT 0. -/
theorem witness_RdoutGivesResult : ∃ (s u : State) (rest : List HostOp), (s.io.busy = false ∧
    s.host.queue = rdout 64 ++ rest) ∧ u.io.busy = false ∧ u.host.queue = rdout 0 ++ rest :=
  ⟨{ State.reset with host.queue := rdout 64 ++ [rd 0x04] },
    { State.reset with host.queue := rdout 0 ++ [rd 0x04] }, [rd 0x04], ⟨rfl, rfl⟩, rfl, rfl⟩

/-- XCMD with 64 bytes and with none; a POLL with BUSY = 0, and with BUSY = 1 and two accesses to be served. -/
theorem witness_XcmdRuns : ∃ (s u v w : State) (bytes : List Byte), (s.io.busy = false ∧ bytes.length = 64 ∧
    s.host.queue = xcmd (.pUpdate 64) bytes ++ []) ∧ (u.io.busy = false ∧ u.host.queue = xcmd .pClear [] ++ []) ∧
    (coreMoves v = false ∧ v.io.busy = false ∧ v.host.queue = [.poll]) ∧
    coreMoves w = false ∧ w.io.busy = true ∧ w.host.queue = [.poll] :=
  ⟨{ State.reset with host.queue := xcmd (.pUpdate 64) (List.replicate 64 0xFF) ++ [] },
    { State.reset with host.queue := xcmd .pClear [] ++ [] }, { State.reset with host.queue := [.poll] },
    { State.reset with io.busy := true, host.queue := [.poll], host.wait := 2 }, List.replicate 64 0xFF,
    ⟨rfl, rfl, rfl⟩, ⟨rfl, rfl⟩, ⟨rfl, rfl, rfl⟩, rfl, rfl, rfl⟩

end Sys2Proof.Tests
end

section
/-! Where the window lies and which agent moves (spec/00_scope.md R5, R11; spec/20_memory.md R50, R60;
spec/60_exceptions.md R204, R217). -/

namespace Sys2Proof.Machine

/-! The window (R50). -/

theorem windowOffset_base_add (off : BitVec 8) : windowOffset (Config.base + off.toNat) = some off := by
  have hinside : Config.base ≤ Config.base + off.toNat ∧ Config.base + off.toNat < Config.base + 256 := by omega
  simp [windowOffset, hinside]

theorem windowOffset_eq_none {addr : Nat} (h : addr < Config.base ∨ Config.base + 256 ≤ addr) :
    windowOffset addr = none := by
  have houtside : ¬(Config.base ≤ addr ∧ addr < Config.base + 256) := by omega
  exact if_neg houtside

theorem qrUnits_count_cases (u : QrUnits) : u.count = 1 ∨ u.count = 2 ∨ u.count = 4 := by
  cases u <;> decide

/-- Settles O45: an offset below 256 is inside the window and is given back, every other address is outside it. -/
theorem parametersAndPlacement : Obligations.ParametersAndPlacement :=
  ⟨Nat.mul_mod_right 256 Config.basePage, windowOffset_base_add, fun _ => windowOffset_eq_none,
    fun _ _ => Nat.le_add_left 1 _, qrUnits_count_cases Config.qrUnits⟩

/-! Which agent moves (R11, R204; assumption log 3). -/

theorem coreMoves_eq_true_iff (s : State) :
    coreMoves s = true ↔ s.io.busy = true ∧ (s.host.queue = [] ∨ s.host.wait = 0) := by
  simp [coreMoves]

/-- While operations are queued, the HOST moves with BUSY = 0 or with drawn operations still to be served. -/
theorem coreMoves_eq_false_of_queue {s : State} {op : HostOp} {rest : List HostOp} (hq : s.host.queue = op :: rest)
    (h : s.io.busy = false ∨ s.host.wait ≠ 0) : coreMoves s = false := by
  rcases h with hb | hw
  · simp [coreMoves, hb]
  · simp [coreMoves, hq, hw]

theorem coreStep_of_decode_ok {s : State} {i : Instr} (h : decode s.io.lcmd = .ok i) : coreStep s = exec i s := by
  simp [coreStep, h]

theorem coreStep_of_decode_error {s : State} {e : DecodeError} (h : decode s.io.lcmd = .error e) :
    coreStep s = .next (finishCommand .illegalCommand (beginCommand s)) := by
  simp [coreStep, h, illegalCommand, raise]

theorem step_eq_coreStep {s : State} (h : coreMoves s = true) : step s = coreStep s := if_pos h

theorem step_eq_hostStep {s : State} (h : coreMoves s = false) : step s = hostStep s := by
  simp [step, h]

theorem hostStep_cons {s : State} {op : HostOp} {rest : List HostOp} (hq : s.host.queue = op :: rest) :
    hostStep s = serveOp op (popOp rest s) := by
  simp [hostStep, hq]

theorem hostStep_nil {s : State} (hq : s.host.queue = []) : hostStep s = .next s := by
  simp [hostStep, hq]

/-- Settles O46: `coreMoves` selects the agent in each of the three cases, and the agent's own rule gives the step. -/
theorem stepRunsDecoded : Obligations.StepRunsDecoded := by
  refine ⟨fun s hb hdue => ?core, fun s op rest hq hserve => ?host, fun s hb hq => ?idle⟩
  case core =>
    have hmoves : step s = coreStep s := step_eq_coreStep ((coreMoves_eq_true_iff s).mpr ⟨hb, hdue⟩)
    exact ⟨fun i hi => hmoves.trans (coreStep_of_decode_ok hi),
      fun e he => ⟨_, hmoves.trans (coreStep_of_decode_error he), turnedAway_raise .illegalCommand s⟩⟩
  case host =>
    exact (step_eq_hostStep (coreMoves_eq_false_of_queue hq hserve)).trans (hostStep_cons hq)
  case idle =>
    have hidle : coreMoves s = false := by simp [coreMoves, hb]
    exact (step_eq_hostStep hidle).trans (hostStep_nil hq)

end Sys2Proof.Machine
end

section
/-! What a completed command leaves, one constructor per outcome (spec/41_keystream.md R130-R145,
spec/42_poly1305.md R180-R189), and what one step of the machine does to the registers (spec/60_exceptions.md R204). -/

namespace Sys2Proof.Machine

/-- `CommandDone s i t`: the body of command i, run in s, ends without error in t. The hypotheses of a constructor are
what the command asks of the unit (R139, R188). -/
inductive CommandDone (s : State) : Instr → State → Prop where
  | ccInit :
      CommandDone s .ccInit { s with
        ksg :=
          { key := keyOperand s.io.din, nonce := nonceOperand s.io.din, ctr := initCtrOperand s.io.din
            exh := false, keyed := true, used := false } }
  | ccSetctr (keyed : s.ksg.keyed = true) (unused : s.ksg.used = false) :
      CommandDone s .ccSetctr { s with ksg.ctr := setCtrOperand s.io.din, ksg.exh := false }
  | ccBlock (keyed : s.ksg.keyed = true) (live : s.ksg.exh = false) :
      CommandDone s .ccBlock { genBlock s with
        io.dout := blockFn s.ksg.key s.ksg.ctr s.ksg.nonce, io.outlen := 64, dp.ks := zeros 8 64 }
  | ccXorNone (keyed : s.ksg.keyed = true) : CommandDone s (.ccXor 0) s
  | ccXorChunk (len : BitVec 7) (legal : legalLen len = true) (keyed : s.ksg.keyed = true) (nonzero : len ≠ 0)
      (live : s.ksg.exh = false) : CommandDone s (.ccXor len) (selectOutput len (genBlock s))
  | ccClear :
      CommandDone s .ccClear { s with
        ksg := .reset, dp.x := zeros 32 16, dp.snap := zeros 32 16, dp.ks := zeros 8 64 }
  | pInit :
      CommandDone s .pInit { s with
        p :=
          { pr := splitR (rOperand s.io.din), ps := sOperand s.io.din, pa := zeros 32 5
            pbuf := zeros 8 16, pcnt := 0, pst := .absorb } }
  | pUpdate (len : BitVec 7) (legal : legalLen len = true) (absorbing : s.p.pst = .absorb) :
      CommandDone s (.pUpdate len) { s with p := absorb s.p (messageOperand s.io.din len.toNat) }
  | pFinal (absorbing : s.p.pst = .absorb) :
      CommandDone s .pFinal { s with
        io.dout := tagOutput (computeTag s.p) s.io.dout, io.outlen := 16, p := P1305.wiped .spent }
  | pVerify (absorbing : s.p.pst = .absorb) :
      CommandDone s .pVerify { s with
        io.matched := ctEq (computeTag s.p) (tagOperand s.io.din), p := P1305.wiped .spent }
  | pClear : CommandDone s .pClear { s with p := P1305.wiped .unkeyed }

/-- A command's body either ends in one of the states `CommandDone` lists or raises a code other than OK and
AuthFail (R201, R210). -/
theorem bodyOf_cases (i : Instr) (s : State) :
    (∃ t, bodyOf i s = .ok t ∧ CommandDone s i t) ∨
    (∃ e, bodyOf i s = .error e ∧ e ≠ .ok ∧ e ≠ .authFail) := by
  cases i with
  | ccInit => exact .inl ⟨_, rfl, .ccInit⟩
  | ccSetctr =>
    rcases bodyCcSetctr_cases rfl with ⟨h, -⟩ | ⟨h, hk, hu⟩
    · exact .inr ⟨_, h, by decide, by decide⟩
    · exact .inl ⟨_, h, .ccSetctr hk hu⟩
  | ccBlock =>
    rcases bodyCcBlock_cases rfl with ⟨h, -⟩ | ⟨h, -⟩ | ⟨h, hk, he⟩
    · exact .inr ⟨_, h, by decide, by decide⟩
    · exact .inr ⟨_, h, by decide, by decide⟩
    · exact .inl ⟨_, h, .ccBlock hk he⟩
  | ccXor len =>
    rcases bodyCcXor_cases (len := len) (s := s) rfl with ⟨h, -⟩ | ⟨h, -⟩ | ⟨h, rfl, hk⟩ | ⟨h, -⟩ | ⟨h, hl, hk, hn, he⟩
    · exact .inr ⟨_, h, by decide, by decide⟩
    · exact .inr ⟨_, h, by decide, by decide⟩
    · exact .inl ⟨_, h, .ccXorNone hk⟩
    · exact .inr ⟨_, h, by decide, by decide⟩
    · exact .inl ⟨_, h, .ccXorChunk len hl hk hn he⟩
  | ccClear => exact .inl ⟨_, rfl, .ccClear⟩
  | pInit => exact .inl ⟨_, rfl, .pInit⟩
  | pUpdate len =>
    rcases bodyPUpdate_cases rfl with ⟨h, -⟩ | ⟨h, -⟩ | ⟨h, hl, ha⟩
    · exact .inr ⟨_, h, by decide, by decide⟩
    · exact .inr ⟨_, h, by decide, by decide⟩
    · exact .inl ⟨_, h, .pUpdate len hl ha⟩
  | pFinal =>
    rcases bodyPFinal_cases rfl with ⟨h, -⟩ | ⟨h, ha⟩
    · exact .inr ⟨_, h, by decide, by decide⟩
    · exact .inl ⟨_, h, .pFinal ha⟩
  | pVerify =>
    rcases bodyPVerify_cases rfl with ⟨h, -⟩ | ⟨h, ha⟩
    · exact .inr ⟨_, h, by decide, by decide⟩
    · exact .inl ⟨_, h, .pVerify ha⟩
  | pClear => exact .inl ⟨_, rfl, .pClear⟩

/-- Everything the CORE's step can do: complete the decoded command, or turn the word away with an error. -/
theorem coreStep_effect {s t : State} (h : coreStep s = .next t) :
    (∃ i u, decode s.io.lcmd = .ok i ∧ CommandDone (beginCommand s) i u ∧ t = finishCommand .ok u) ∨
    (∃ e, e ≠ .ok ∧ e ≠ .authFail ∧ t = finishCommand e (beginCommand s)) := by
  rcases coreStep_cases h with ⟨i, hi, hx⟩ | ⟨_, -, rfl⟩
  · rw [exec_eq_runCommand] at hx
    rcases bodyOf_cases i (beginCommand s) with ⟨u, hb, hd⟩ | ⟨e, hb, hok, hauth⟩
    · exact .inl ⟨i, u, hi, hd, by simpa [runCommand_ok hb] using hx.symm⟩
    · exact .inr ⟨e, hok, hauth, by simpa [runCommand_error hb] using hx.symm⟩
  · exact .inr ⟨.illegalCommand, by decide, by decide, rfl⟩

/-- What a host access other than reset leaves as it was (R54, R55, R245): the units and the results. -/
structure ResultsKept (s t : State) : Prop where
  units : UnitsKept s t
  dout : t.io.dout = s.io.dout
  outlen : t.io.outlen = s.io.outlen
  err : t.io.err = s.io.err
  matched : t.io.matched = s.io.matched

theorem ResultsKept.of_io_eq {s t : State} (units : UnitsKept s t) (hio : t.io = s.io) : ResultsKept s t where
  units := units
  dout := by rw [hio]
  outlen := by rw [hio]
  err := by rw [hio]
  matched := by rw [hio]

theorem ResultsKept.refl (s : State) : ResultsKept s s := .of_io_eq ⟨rfl, rfl, rfl⟩ rfl

theorem servedRead_resultsKept (r : WinReg) (s : State) : ResultsKept s (servedRead r s) :=
  .of_io_eq ⟨by simp, by simp, by simp⟩ (by simp)

theorem pollStatus_resultsKept (s : State) : ResultsKept s (pollStatus s) :=
  .of_io_eq ⟨by simp, by simp, by simp⟩ (by simp)

theorem startCommand_resultsKept (w : Word) (s : State) : ResultsKept s (startCommand w s) :=
  ⟨⟨by simp, by simp, by simp⟩, by simp, by simp, by simp, by simp⟩

theorem writeDin_resultsKept (j : Fin 16) (v : Word) (s : State) : ResultsKept s (writeDin j v s) :=
  ⟨⟨by simp, by simp, by simp⟩, by simp, by simp, by simp, by simp⟩

theorem regAt_eq_cmd {off : BitVec 8} (h : regAt off = .cmd) : off = 0x00 := by
  by_contra hoff
  have hne : off.toNat ≠ 0x00 := fun hzero => hoff (BitVec.eq_of_toNat_eq hzero)
  revert h
  unfold regAt
  rw [if_neg hne]
  split_ifs <;> simp

theorem servedAccess_size {off : BitVec 8} {size : Nat} (h : servedAccess off size = true) : size = 4 := by
  simp only [servedAccess, Bool.and_eq_true, beq_iff_eq] at h
  exact h.1

/-- A host operation other than reset keeps the units and the results, and BUSY too unless it is the write that starts
a command (R22, R46). -/
theorem serveOp_keeps {op : HostOp} {s t : State} (h : serveOp op s = .next t) (hop : op ≠ .reset) :
    ResultsKept s t ∧
      (t.io.busy = s.io.busy ∨ s.io.busy = false ∧ t.io.busy = true ∧ ∃ v, op = .write 0x00 4 v) := by
  cases op with
  | read off size =>
    rcases memRead_cases h with ⟨ht, -⟩ | ⟨ht, -⟩ <;> cases ht
    exact ⟨servedRead_resultsKept _ s, .inl (by simp)⟩
  | write off size v =>
    rcases memWrite_cases h with
      ⟨ht, -⟩ | ⟨ht, -⟩ | ⟨ht, hserved, hbusy, hreg⟩ | ⟨j, ht, -⟩ | ⟨ht, -⟩ <;> cases ht
    · obtain rfl := regAt_eq_cmd hreg
      obtain rfl := servedAccess_size hserved
      exact ⟨startCommand_resultsKept v s, .inr ⟨hbusy, by simp, v, rfl⟩⟩
    · exact ⟨writeDin_resultsKept j v s, .inl (by simp)⟩
    · exact ⟨.refl s, .inl rfl⟩
  | poll =>
    cases h
    exact ⟨pollStatus_resultsKept s, .inl (by simp)⟩
  | reset => exact absurd rfl hop

theorem ResultsKept.of_popOp {rest : List HostOp} {s t : State} (h : ResultsKept (popOp rest s) t) :
    ResultsKept s t := by
  obtain ⟨⟨hksg, hdp, hp⟩, hdout, houtlen, herr, hmatched⟩ := h
  exact ⟨⟨by simpa using hksg, by simpa using hdp, by simpa using hp⟩, by simpa using hdout,
    by simpa using houtlen, by simpa using herr, by simpa using hmatched⟩

/-- What one step of the machine does to the registers of the CORE: the CORE's step; a reset; or a HOST step that keeps
the units and the results, and BUSY too unless it writes CMD. -/
theorem step_effect {s t : State} (h : step s = .next t) :
    (coreMoves s = true ∧ coreStep s = .next t) ∨
    (resetNext s ∧ t.io = .reset ∧ t.ksg = .reset ∧ t.dp = .reset ∧ t.p = .reset) ∨
    (coreMoves s = false ∧ ResultsKept s t ∧
      (t.io.busy = s.io.busy ∨
        s.io.busy = false ∧ t.io.busy = true ∧ ∃ v rest, s.host.queue = .write 0x00 4 v :: rest)) := by
  rcases step_cases h with hcore | ⟨hm, -, -, ht⟩ | ⟨hm, op, rest, hq, hop⟩
  · exact .inl hcore
  · cases ht
    exact .inr (.inr ⟨hm, .refl s, .inl rfl⟩)
  · by_cases hreset : op = .reset
    · subst hreset
      cases hop
      exact .inr (.inl ⟨⟨hm, rest, hq⟩, by simp, by simp, by simp, by simp⟩)
    · obtain ⟨hkept, hbusy⟩ := serveOp_keeps hop hreset
      refine .inr (.inr ⟨hm, hkept.of_popOp, ?_⟩)
      rcases hbusy with hsame | ⟨hidle, hstarted, v, rfl⟩
      · exact .inl (by simpa using hsame)
      · exact .inr ⟨by simpa using hidle, hstarted, v, rest, hq⟩

end Sys2Proof.Machine
end

section
/-! The limb bounds of the Poly1305 datapath (spec/42_poly1305.md R161, R163-R165, R170). -/

namespace Sys2Proof.Machine

/-! The clamped r (R161). -/

theorem splitR_toNat_le (r : Nat) (i : Fin 5) :
    ((splitR r)[i]).toNat ≤ (clampMask >>> (26 * i.val)) &&& digitMask := by
  have hle : (clamp r >>> (26 * i.val)) &&& digitMask ≤ (clampMask >>> (26 * i.val)) &&& digitMask := by
    rw [clamp, Nat.shiftRight_and_distrib, Nat.and_assoc]
    exact Nat.and_le_right
  calc ((splitR r)[i]).toNat
      = ((clamp r >>> (26 * i.val)) &&& digitMask) % 2 ^ 32 := by
        simp only [splitR, Fin.getElem_fin, Vector.getElem_ofFn, BitVec.toNat_ofNat]
    _ ≤ (clamp r >>> (26 * i.val)) &&& digitMask := Nat.mod_le _ _
    _ ≤ _ := hle

/-- The limbs of the clamped r stay within the maxima of R161. -/
theorem splitR_rBounds (r : Nat) : RBounds (splitR r) where
  r0 := splitR_toNat_le r 0
  r1 := splitR_toNat_le r 1
  r2 := splitR_toNat_le r 2
  r3 := splitR_toNat_le r 3
  r4 := splitR_toNat_le r 4

/-! One block step (R163-R165, R170). -/

/-- The bounds of the sums of R163: a limb of PA plus a 26-bit digit of the block, the top digit 25 bits wide. -/
structure SumBounds (h : Vector Nat 5) : Prop where
  h0 : h[0] ≤ 2 ^ 27
  h1 : h[1] ≤ 2 ^ 27 + 0x25
  h2 : h[2] ≤ 2 ^ 27
  h3 : h[3] ≤ 2 ^ 27
  h4 : h[4] ≤ 2 ^ 26 + 2 ^ 25

theorem addBlock_sumBounds {pa : Vector Word 5} (ha : ABounds pa) (b : Vector Byte 16) (hb : Bool) :
    SumBounds (addBlock pa b hb) := by
  obtain ⟨a0, a1, a2, a3, a4⟩ := ha
  have hdigit : ∀ n : Nat, n &&& digitMask < 2 ^ 26 := fun n => by
    rw [and_digitMask]; exact Nat.mod_lt _ (by decide)
  have htop : (leNat b.toList >>> 104) ||| (hb.toNat <<< 24) < 2 ^ 25 := by
    have hlen := leNat_lt b.toList
    have hbit := Bool.toNat_le hb
    simp only [Vector.length_toList] at hlen
    refine Nat.or_lt_two_pow ?_ ?_
    · rw [Nat.shiftRight_eq_div_pow]; omega
    · rw [Nat.shiftLeft_eq]; omega
  constructor <;> simp only [addBlock, Vector.getElem_mk, List.getElem_toArray, List.getElem_cons_zero,
    List.getElem_cons_succ]
  · have := hdigit (leNat b.toList); omega
  · have := hdigit (leNat b.toList >>> 26); omega
  · have := hdigit (leNat b.toList >>> 52); omega
  · have := hdigit (leNat b.toList >>> 78); omega
  · omega

/-- The bounds of the column sums of R164 that R165 needs: the top column is the tight one. -/
structure ColumnBounds (d : Vector Nat 5) : Prop where
  d0 : d[0] ≤ 2 ^ 59
  d1 : d[1] ≤ 2 ^ 59
  d2 : d[2] ≤ 2 ^ 59
  d3 : d[3] ≤ 2 ^ 59
  d4 : d[4] ≤ 0x78000100000000

/-- Five products with factors below 2^28 and 5·2^26, the folded limb of R164, make a column below 2^59. -/
theorem column_le {x0 x1 x2 x3 x4 y0 y1 y2 y3 y4 : Nat}
    (hx : x0 ≤ 2 ^ 28 ∧ x1 ≤ 2 ^ 28 ∧ x2 ≤ 2 ^ 28 ∧ x3 ≤ 2 ^ 28 ∧ x4 ≤ 2 ^ 28)
    (hy : y0 ≤ 5 * 2 ^ 26 ∧ y1 ≤ 5 * 2 ^ 26 ∧ y2 ≤ 5 * 2 ^ 26 ∧ y3 ≤ 5 * 2 ^ 26 ∧ y4 ≤ 5 * 2 ^ 26) :
    x0 * y0 + x1 * y1 + x2 * y2 + x3 * y3 + x4 * y4 ≤ 2 ^ 59 := by
  obtain ⟨hx0, hx1, hx2, hx3, hx4⟩ := hx
  obtain ⟨hy0, hy1, hy2, hy3, hy4⟩ := hy
  have h0 := Nat.mul_le_mul hx0 hy0
  have h1 := Nat.mul_le_mul hx1 hy1
  have h2 := Nat.mul_le_mul hx2 hy2
  have h3 := Nat.mul_le_mul hx3 hy3
  have h4 := Nat.mul_le_mul hx4 hy4
  omega

theorem mulColumns_columnBounds {h : Vector Nat 5} {pr : Vector Word 5} (hh : SumBounds h) (hr : RBounds pr) :
    ColumnBounds (mulColumns h pr) := by
  obtain ⟨h0, h1, h2, h3, h4⟩ := hh
  obtain ⟨r0, r1, r2, r3, r4⟩ := hr
  constructor <;> simp only [mulColumns, Vector.getElem_mk, List.getElem_toArray, List.getElem_cons_zero,
    List.getElem_cons_succ]
  case d4 =>
    calc h[0] * pr[4].toNat + h[1] * pr[3].toNat + h[2] * pr[2].toNat + h[3] * pr[1].toNat + h[4] * pr[0].toNat
        ≤ 2 ^ 27 * 0x00FFFFF + (2 ^ 27 + 0x25) * 0x3F03FFF + 2 ^ 27 * 0x3FFC0FF + 2 ^ 27 * 0x3FFFF03 +
            (2 ^ 26 + 2 ^ 25) * 0x3FFFFFF := by gcongr
      _ ≤ 0x78000100000000 := by norm_num
  all_goals exact column_le (by omega) (by omega)

/-- Limbs narrowed to 32 bits only get smaller, so upper bounds carry over. -/
theorem toNat_ofNat_le (n : Nat) : (BitVec.ofNat 32 n).toNat ≤ n := by
  rw [BitVec.toNat_ofNat]; exact Nat.mod_le _ _

/-- The carry out of the top column is at most 38, which is where the slack of limb 1 in R170 comes from. -/
theorem carryReduce_aBounds {d : Vector Nat 5} (hd : ColumnBounds d) : ABounds (carryReduce d) := by
  obtain ⟨d0, d1, d2, d3, d4⟩ := hd
  have hdigit : ∀ n : Nat, (BitVec.ofNat 32 (n % 2 ^ 26)).toNat < 2 ^ 26 := fun n =>
    (toNat_ofNat_le _).trans_lt (Nat.mod_lt n (by decide))
  constructor <;> simp only [carryReduce, Vector.getElem_mk, List.getElem_toArray, List.getElem_cons_zero,
    List.getElem_cons_succ, and_digitMask, Nat.shiftRight_eq_div_pow]
  case a1 => exact (toNat_ofNat_le _).trans (by omega)
  all_goals exact hdigit _

/-- A block step keeps the limbs within the bounds of R170. -/
theorem polyBlock_aBounds {pa pr : Vector Word 5} (ha : ABounds pa) (hr : RBounds pr) (b : Vector Byte 16)
    (hb : Bool) : ABounds (polyBlock pa pr b hb) :=
  carryReduce_aBounds (mulColumns_columnBounds (addBlock_sumBounds ha b hb) hr)

end Sys2Proof.Machine
end

section
/-! What each command keeps of the registers' invariant (spec/10_state.md R28-R42, spec/60_exceptions.md R203, R210). -/

namespace Sys2Proof.Machine

/-! The keystream generator (R32-R34). -/

theorem ksgInv_reset : KsgInv .reset := by
  constructor <;> simp [Ksg.reset]

/-- The block of a live unit: EXH is set only where the counter goes back to 0 (R132). -/
theorem KsgInv.advance_used {k : Ksg} (keyed : k.keyed = true) (live : k.exh = false) :
    KsgInv { advance k with used := true } := by
  constructor <;> simp only [advance_keyed, advance_key, advance_nonce, keyed]
  case exh_ctr => unfold advance; split <;> simp [live]
  all_goals simp

theorem CommandDone.ksgInv {s t : State} {i : Instr} (h : CommandDone s i t) (hs : KsgInv s.ksg) : KsgInv t.ksg := by
  cases h with
  | ccInit => constructor <;> simp
  | ccSetctr keyed unused => constructor <;> simp [keyed, unused]
  | ccBlock keyed live => simpa using KsgInv.advance_used keyed live
  | ccXorChunk len legal keyed nonzero live => simpa using KsgInv.advance_used keyed live
  | ccClear => exact ksgInv_reset
  | ccXorNone | pInit | pUpdate | pFinal | pVerify | pClear => exact hs

/-! The block-function datapath (R35-R38). -/

theorem datapathInv_reset : DatapathInv .reset := ⟨rfl, rfl, rfl, rfl, rfl, rfl, rfl⟩

/-- A block generation whose KS has been handed on leaves the datapath at rest (R112, R133). -/
theorem afterBlock_datapathInv (block : Vector Byte 64) :
    DatapathInv { Datapath.afterBlock block with ks := zeros 8 64 } := ⟨rfl, rfl, rfl, rfl, rfl, rfl, rfl⟩

theorem selectOutput_dp (len : BitVec 7) (s : State) :
    (selectOutput len s).dp = { s.dp with ks := zeros 8 64 } := by rw [selectOutput]

theorem CommandDone.datapathInv {s t : State} {i : Instr} (h : CommandDone s i t) (hs : DatapathInv s.dp) :
    DatapathInv t.dp := by
  cases h with
  | ccBlock =>
    change DatapathInv { (genBlock s).dp with ks := zeros 8 64 }
    rw [genBlock_dp]
    exact afterBlock_datapathInv _
  | ccXorChunk =>
    rw [selectOutput_dp, genBlock_dp]
    exact afterBlock_datapathInv _
  | ccClear => exact ⟨rfl, rfl, rfl, hs.idle, hs.at_start⟩
  | ccInit | ccSetctr | ccXorNone | pInit | pUpdate | pFinal | pVerify | pClear => exact hs

/-! The Poly1305 unit (R39, R41, R42, R189). -/

theorem aBounds_zeros : ABounds (zeros 32 5) := by constructor <;> simp

theorem p1305Inv_wiped (x : Pst) : P1305Inv (P1305.wiped x) where
  r_bounds := by constructor <;> simp [P1305.wiped]
  a_bounds := aBounds_zeros
  pcnt_le := by simp [P1305.wiped]
  tail_zero i _ := zeros_getElem 8 16 i.val i.isLt
  held_only_absorbing _ := rfl

/-- A unit that has absorbed a byte: the byte fills the buffer, which becomes a block, or it joins the buffer (R181,
R182). -/
theorem absorbByte_inv {p : P1305} (hp : P1305Inv p) (absorbing : p.pst = .absorb) (b : Byte) :
    P1305Inv (absorbByte p b) := by
  obtain ⟨hr, ha, hcnt, htail, -⟩ := hp
  simp only [absorbByte]
  split_ifs with hfull
  · exact ⟨hr, polyBlock_aBounds ha hr _ _, by simp, fun i _ => zeros_getElem 8 16 i.val i.isLt,
      fun hne => absurd absorbing hne⟩
  · have hsucc : (p.pcnt + 1).toNat = p.pcnt.toNat + 1 := by bv_omega
    refine ⟨hr, ha, by bv_omega, fun i hi => ?_, fun hne => absurd absorbing hne⟩
    have hlt : p.pcnt.toNat < i.val := hsucc.symm.trans_le hi
    simpa [Vector.getElem_setIfInBounds, hlt.ne] using htail i hlt.le

theorem absorb_inv {p : P1305} (hp : P1305Inv p) (absorbing : p.pst = .absorb) (bytes : List Byte) :
    P1305Inv (absorb p bytes) := by
  induction bytes generalizing p with
  | nil => exact hp
  | cons b bytes ih => exact ih (absorbByte_inv hp absorbing b) (by simpa using absorbing)

theorem CommandDone.p1305Inv {s t : State} {i : Instr} (h : CommandDone s i t) (hs : P1305Inv s.p) :
    P1305Inv t.p := by
  cases h with
  | pInit =>
    exact ⟨splitR_rBounds _, aBounds_zeros, by simp, fun i _ => zeros_getElem 8 16 i.val i.isLt,
      fun hne => absurd rfl hne⟩
  | pUpdate len legal absorbing => exact absorb_inv hs absorbing _
  | pFinal => exact p1305Inv_wiped .spent
  | pVerify => exact p1305Inv_wiped .spent
  | pClear => exact p1305Inv_wiped .unkeyed
  | ccBlock => simpa using hs
  | ccXorChunk => simpa using hs
  | ccInit | ccSetctr | ccXorNone | ccClear => exact hs

/-! The interface registers (R28, R203, R210). These hold after the CORE's step whatever they held before. -/

theorem noOutput_beginCommand (s : State) : NoOutput (beginCommand s) := ⟨by simp, by simp, by simp⟩

/-- A completion without output. -/
theorem NoOutput.interfaceInv {t : State} (h : NoOutput t) (herr : t.io.err ≠ .authFail) : InterfaceInv t.io where
  outlen_le := by simp [h.outlen]
  dout_tail i _ := by simp [h.dout]
  no_authFail := herr
  error_no_result _ := ⟨h.outlen, h.matched⟩
  match_no_output _ := h.outlen

theorem interfaceInv_turnedAway {e : ErrCode} (he : e ≠ .authFail) (s : State) :
    InterfaceInv (finishCommand e (beginCommand s)).io := by
  have haway := turnedAway_raise e s
  exact haway.output.interfaceInv (by simpa using he)

/-- The result a completed command leaves, started with DOUT, OUTLEN and MATCH cleared: at most 64 bytes, 0 behind
them, and a MATCH = 1 only without output. -/
theorem CommandDone.output {s t : State} {i : Instr} (h : CommandDone s i t) (hs : NoOutput s) :
    t.io.outlen.toNat ≤ 64 ∧ (∀ k : Fin 64, t.io.outlen.toNat ≤ k.val → t.io.dout[k] = 0) ∧
      (t.io.matched = true → t.io.outlen = 0) := by
  have hlen : s.io.outlen.toNat ≤ 64 := by simp [hs.outlen]
  have htail : ∀ k : Fin 64, s.io.outlen.toNat ≤ k.val → s.io.dout[k] = 0 := fun k _ => by simp [hs.dout]
  cases h with
  | ccBlock => exact ⟨by simp, fun k hk => by simp at hk; omega, by simp [hs.matched]⟩
  | ccXorChunk len legal =>
    refine ⟨by simpa [legalLen] using legal, fun k hk => ?_, by simp [hs.matched]⟩
    have hbeyond : ¬ k.val < len.toNat := by simpa using hk
    simp [selectedBytes, hbeyond, hs.dout]
  | pFinal =>
    refine ⟨by simp, fun k hk => ?_, by simp [hs.matched]⟩
    have hbeyond : ¬ k.val < 16 := by simpa using hk
    simp [tagOutput, hbeyond, hs.dout]
  | pVerify | ccInit | ccSetctr | ccXorNone | ccClear | pInit | pUpdate | pClear =>
    exact ⟨hlen, htail, fun _ => hs.outlen⟩

/-- The CORE's step leaves the interface within its invariant, whatever it held before. -/
theorem coreStep_interfaceInv {s t : State} (h : coreStep s = .next t) : InterfaceInv t.io := by
  rcases coreStep_effect h with ⟨i, u, -, hdone, rfl⟩ | ⟨e, -, hauth, rfl⟩
  · obtain ⟨hlen, htail, hmatch⟩ := hdone.output (noOutput_beginCommand s)
    exact ⟨by simpa using hlen, by simpa using htail, by simp, by simp, by simpa using hmatch⟩
  · exact interfaceInv_turnedAway hauth s

theorem coreStep_inv {s t : State} (hs : Inv s) (h : coreStep s = .next t) : Inv t := by
  have hio : InterfaceInv t.io := coreStep_interfaceInv h
  obtain ⟨-, hksg, hdp, hp⟩ := hs
  rcases coreStep_effect h with ⟨i, u, -, hdone, rfl⟩ | ⟨e, -, -, rfl⟩
  · exact ⟨hio, by simpa using hdone.ksgInv (by simpa using hksg),
      by simpa using hdone.datapathInv (by simpa using hdp), by simpa using hdone.p1305Inv (by simpa using hp)⟩
  · exact ⟨hio, by simpa using hksg, by simpa using hdp, by simpa using hp⟩

/-! The HOST's side (R54, R55, R230). -/

theorem interfaceInv_reset : InterfaceInv .reset := by
  have hnone : NoOutput State.reset := ⟨rfl, rfl, rfl⟩
  exact hnone.interfaceInv (by decide)

theorem ResultsKept.inv {s t : State} (h : ResultsKept s t) (hs : Inv s) : Inv t := by
  obtain ⟨⟨hksg, hdp, hp⟩, hdout, houtlen, herr, hmatched⟩ := h
  obtain ⟨⟨hlen, htail, hauth, herror, hmatch⟩, hk, hd, hpoly⟩ := hs
  refine ⟨?_, hksg ▸ hk, hdp ▸ hd, hp ▸ hpoly⟩
  constructor <;> simpa only [hdout, houtlen, herr, hmatched]

/-- Settles O51: the CORE's step keeps the invariant command by command, a reset meets it afresh, and every other HOST
step leaves what it speaks of. -/
theorem stepKeepsInvariant : Obligations.StepKeepsInvariant := by
  intro s t hs hstep
  rcases step_effect hstep with ⟨-, hcore⟩ | ⟨-, hio, hksg, hdp, hp⟩ | ⟨-, hkept, -⟩
  · exact coreStep_inv hs hcore
  · exact ⟨hio ▸ interfaceInv_reset, hksg ▸ ksgInv_reset, hdp ▸ datapathInv_reset, hp ▸ p1305Inv_wiped .unkeyed⟩
  · exact hkept.inv hs

end Sys2Proof.Machine
end

section
/-! Who writes the key registers and each flag (spec/10_state.md R31, R46). Each lemma lists the moves of one register:
it stays, or one of the named events gives it the named value. -/

namespace Sys2Proof.Machine

/-! A completed command. -/

/-- The commands that generate a block when they complete (R130, R136, R137). -/
def GeneratesBlock (i : Instr) : Prop := i = .ccBlock ∨ ∃ len : BitVec 7, 1 ≤ len.toNat ∧ i = .ccXor len

theorem generatesBlock_ccBlock : GeneratesBlock .ccBlock := .inl rfl

theorem generatesBlock_ccXor {len : BitVec 7} (nonzero : len ≠ 0) : GeneratesBlock (.ccXor len) :=
  .inr ⟨len, by bv_omega, rfl⟩

/-- The counter advance sets EXH exactly at the last counter value (R132). -/
theorem advance_exh (k : Ksg) : (advance k).exh = k.exh ∨ (advance k).exh = true ∧ k.ctr = 0xFFFFFFFF := by
  unfold advance
  split
  · exact .inr ⟨rfl, ‹_›⟩
  · exact .inl rfl

section
variable {s t : State} {i : Instr}

theorem CommandDone.key_nonce (h : CommandDone s i t) :
    (t.ksg.key = s.ksg.key ∧ t.ksg.nonce = s.ksg.nonce) ∨ i = .ccInit ∨ i = .ccClear := by
  cases h <;> simp

theorem CommandDone.keyed_moves (h : CommandDone s i t) :
    t.ksg.keyed = s.ksg.keyed ∨ (t.ksg.keyed = true ∧ i = .ccInit) ∨ (t.ksg.keyed = false ∧ i = .ccClear) := by
  cases h <;> simp [Ksg.reset]

theorem CommandDone.used_moves (h : CommandDone s i t) :
    t.ksg.used = s.ksg.used ∨ (t.ksg.used = true ∧ GeneratesBlock i) ∨
      (t.ksg.used = false ∧ (i = .ccInit ∨ i = .ccClear)) := by
  cases h with
  | ccBlock => exact .inr (.inl ⟨by simp, generatesBlock_ccBlock⟩)
  | ccXorChunk len legal keyed nonzero => exact .inr (.inl ⟨by simp, generatesBlock_ccXor nonzero⟩)
  | _ => simp [Ksg.reset]

theorem CommandDone.exh_moves (h : CommandDone s i t) :
    t.ksg.exh = s.ksg.exh ∨ (t.ksg.exh = true ∧ s.ksg.ctr = 0xFFFFFFFF ∧ GeneratesBlock i) ∨
      (t.ksg.exh = false ∧ (i = .ccInit ∨ i = .ccSetctr ∨ i = .ccClear)) := by
  have hblock (hi : GeneratesBlock i) (ht : t.ksg.exh = (advance s.ksg).exh) :
      t.ksg.exh = s.ksg.exh ∨ (t.ksg.exh = true ∧ s.ksg.ctr = 0xFFFFFFFF ∧ GeneratesBlock i) := by
    rw [ht]
    exact (advance_exh s.ksg).imp_right fun ⟨hset, hlast⟩ => ⟨hset, hlast, hi⟩
  cases h with
  | ccBlock => exact (hblock generatesBlock_ccBlock (by simp)).imp_right .inl
  | ccXorChunk len legal keyed nonzero => exact (hblock (generatesBlock_ccXor nonzero) (by simp)).imp_right .inl
  | _ => simp [Ksg.reset]

theorem CommandDone.pst_moves (h : CommandDone s i t) :
    t.p.pst = s.p.pst ∨ (t.p.pst = .absorb ∧ i = .pInit) ∨ (t.p.pst = .spent ∧ (i = .pFinal ∨ i = .pVerify)) ∨
      (t.p.pst = .unkeyed ∧ i = .pClear) := by
  cases h <;> simp

theorem CommandDone.matched_moves (h : CommandDone s i t) :
    t.io.matched = s.io.matched ∨
      (t.io.matched = ctEq (computeTag s.p) (tagOperand s.io.din) ∧ i = .pVerify ∧ s.p.pst = .absorb) := by
  cases h with
  | pVerify absorbing => exact .inr ⟨rfl, rfl, absorbing⟩
  | _ => simp

end

/-! The compare (R185). -/

/-- A fold of ORed differences is 0 exactly when it started from 0 and no pair differs. -/
theorem foldl_or_xor_eq_zero (l : List (Byte × Byte)) (acc : Byte) :
    l.foldl (fun acc d => acc ||| (d.1 ^^^ d.2)) acc = 0#8 ↔ acc = 0#8 ∧ ∀ d ∈ l, d.1 = d.2 := by
  induction l generalizing acc with
  | nil => simp
  | cons d l ih =>
    rw [List.foldl_cons, ih, BitVec.or_eq_zero_iff, BitVec.xor_eq_zero_iff, List.forall_mem_cons, and_assoc]

theorem eq_of_ctEq {t e : Vector Byte 16} (h : ctEq t e = true) : t = e := by
  simp only [ctEq, beq_iff_eq] at h
  obtain ⟨-, hpairs⟩ := (foldl_or_xor_eq_zero _ _).mp h
  ext1 k hk
  exact hpairs (t[k], e[k]) (List.mem_iff_getElem.mpr ⟨k, by simpa using hk, by simp⟩)

/-! One step of the machine. -/

/-- A unit changes by a completed command or by a reset, and by nothing else. -/
theorem step_units {s t : State} (h : step s = .next t) :
    UnitsKept s t ∨
    (∃ i u, executes i s ∧ CommandDone (beginCommand s) i u ∧ t = finishCommand .ok u) ∨
    (resetNext s ∧ t.ksg = .reset ∧ t.p = .reset) := by
  rcases step_effect h with ⟨hm, hcore⟩ | ⟨hreset, -, hksg, -, hp⟩ | ⟨-, hkept, -⟩
  · rcases coreStep_effect hcore with ⟨i, u, hi, hdone, ht⟩ | ⟨e, -, -, rfl⟩
    · exact .inr (.inl ⟨i, u, ⟨hm, hi⟩, hdone, ht⟩)
    · exact .inl (turnedAway_raise e s).units
  · exact .inr (.inr ⟨hreset, hksg, hp⟩)
  · exact .inl hkept.units

/-- Settles O55: among the completed commands only CC_INIT and CC_CLEAR write KEY or NONCE. -/
theorem keyNonceConstant : Obligations.KeyNonceConstant := by
  intro s t hstep hchange
  rcases step_units hstep with hkept | ⟨i, u, hx, hdone, rfl⟩ | ⟨hreset, -, -⟩
  · simp [hkept.ksg] at hchange
  · rcases hdone.key_nonce with ⟨hkey, hnonce⟩ | rfl | rfl
    · simp [hkey, hnonce] at hchange
    · exact .inl hx
    · exact .inr (.inl hx)
  · exact .inr (.inr hreset)

/-- The CORE executes a command that generates a block. -/
def BlockStep (s : State) : Prop := executes .ccBlock s ∨ ∃ len : BitVec 7, 1 ≤ len.toNat ∧ executes (.ccXor len) s

theorem blockStep_of_executes {s : State} {i : Instr} (hi : GeneratesBlock i) (hx : executes i s) : BlockStep s := by
  rcases hi with rfl | ⟨len, hlen, rfl⟩
  · exact .inl hx
  · exact .inr ⟨len, hlen, hx⟩

section
variable {s t : State} (h : step s = .next t)
include h

theorem step_keyed_moves :
    t.ksg.keyed = s.ksg.keyed ∨ (t.ksg.keyed = true ∧ executes .ccInit s) ∨
      (t.ksg.keyed = false ∧ (executes .ccClear s ∨ resetNext s)) := by
  rcases step_units h with hkept | ⟨i, u, hx, hdone, rfl⟩ | ⟨hreset, hksg, -⟩
  · exact .inl (by rw [hkept.ksg])
  · rcases hdone.keyed_moves with hsame | ⟨hset, rfl⟩ | ⟨hcleared, rfl⟩
    · exact .inl (by simpa using hsame)
    · exact .inr (.inl ⟨by simpa using hset, hx⟩)
    · exact .inr (.inr ⟨by simpa using hcleared, .inl hx⟩)
  · exact .inr (.inr ⟨by rw [hksg]; rfl, .inr hreset⟩)

theorem step_used_moves :
    t.ksg.used = s.ksg.used ∨ (t.ksg.used = true ∧ BlockStep s) ∨
      (t.ksg.used = false ∧ (executes .ccInit s ∨ executes .ccClear s ∨ resetNext s)) := by
  rcases step_units h with hkept | ⟨i, u, hx, hdone, rfl⟩ | ⟨hreset, hksg, -⟩
  · exact .inl (by rw [hkept.ksg])
  · rcases hdone.used_moves with hsame | ⟨hset, hblock⟩ | ⟨hcleared, rfl | rfl⟩
    · exact .inl (by simpa using hsame)
    · exact .inr (.inl ⟨by simpa using hset, blockStep_of_executes hblock hx⟩)
    · exact .inr (.inr ⟨by simpa using hcleared, .inl hx⟩)
    · exact .inr (.inr ⟨by simpa using hcleared, .inr (.inl hx)⟩)
  · exact .inr (.inr ⟨by rw [hksg]; rfl, .inr (.inr hreset)⟩)

theorem step_exh_moves :
    t.ksg.exh = s.ksg.exh ∨ (t.ksg.exh = true ∧ s.ksg.ctr = 0xFFFFFFFF ∧ BlockStep s) ∨
      (t.ksg.exh = false ∧ (executes .ccInit s ∨ executes .ccSetctr s ∨ executes .ccClear s ∨ resetNext s)) := by
  rcases step_units h with hkept | ⟨i, u, hx, hdone, rfl⟩ | ⟨hreset, hksg, -⟩
  · exact .inl (by rw [hkept.ksg])
  · rcases hdone.exh_moves with hsame | ⟨hset, hlast, hblock⟩ | ⟨hcleared, rfl | rfl | rfl⟩
    · exact .inl (by simpa using hsame)
    · exact .inr (.inl ⟨by simpa using hset, by simpa using hlast, blockStep_of_executes hblock hx⟩)
    · exact .inr (.inr ⟨by simpa using hcleared, .inl hx⟩)
    · exact .inr (.inr ⟨by simpa using hcleared, .inr (.inl hx)⟩)
    · exact .inr (.inr ⟨by simpa using hcleared, .inr (.inr (.inl hx))⟩)
  · exact .inr (.inr ⟨by rw [hksg]; rfl, .inr (.inr (.inr hreset))⟩)

theorem step_pst_moves :
    t.p.pst = s.p.pst ∨ (t.p.pst = .absorb ∧ executes .pInit s) ∨
      (t.p.pst = .spent ∧ (executes .pFinal s ∨ executes .pVerify s)) ∨
      (t.p.pst = .unkeyed ∧ (executes .pClear s ∨ resetNext s)) := by
  rcases step_units h with hkept | ⟨i, u, hx, hdone, rfl⟩ | ⟨hreset, -, hp⟩
  · exact .inl (by rw [hkept.p])
  · rcases hdone.pst_moves with hsame | ⟨hset, rfl⟩ | ⟨hspent, rfl | rfl⟩ | ⟨hcleared, rfl⟩
    · exact .inl (by simpa using hsame)
    · exact .inr (.inl ⟨by simpa using hset, hx⟩)
    · exact .inr (.inr (.inl ⟨by simpa using hspent, .inl hx⟩))
    · exact .inr (.inr (.inl ⟨by simpa using hspent, .inr hx⟩))
    · exact .inr (.inr (.inr ⟨by simpa using hcleared, .inl hx⟩))
  · exact .inr (.inr (.inr ⟨by rw [hp]; rfl, .inr hreset⟩))

/-- The start of a command clears MATCH, so after the CORE's step it is 1 only by a P_VERIFY (R184, R204). -/
theorem step_matched_moves :
    (t.io.matched = s.io.matched ∧ coreMoves s = false) ∨
    (t.io.matched = false ∧ (coreMoves s = true ∨ resetNext s)) ∨
    (coreMoves s = true ∧ executes .pVerify s ∧ s.p.pst = .absorb ∧
      t.io.matched = ctEq (computeTag s.p) (tagOperand s.io.din)) := by
  rcases step_effect h with ⟨hm, hcore⟩ | ⟨hreset, hio, -⟩ | ⟨hm, hkept, -⟩
  · rcases coreStep_effect hcore with ⟨i, u, hi, hdone, rfl⟩ | ⟨e, -, -, rfl⟩
    · rcases hdone.matched_moves with hcleared | ⟨hcompare, rfl, hpst⟩
      · exact .inr (.inl ⟨by simpa using hcleared, .inl hm⟩)
      · exact .inr (.inr ⟨hm, ⟨hm, hi⟩, by simpa using hpst, by simpa using hcompare⟩)
    · exact .inr (.inl ⟨by simp, .inl hm⟩)
  · exact .inr (.inl ⟨by rw [hio]; rfl, .inr hreset⟩)
  · exact .inl ⟨hkept.matched, hm⟩

/-- The CORE moves only while BUSY = 1, so BUSY = 0 becomes 1 only by a HOST write of CMD (R22, R44). -/
theorem step_busy_moves :
    t.io.busy = s.io.busy ∨
    (t.io.busy = true ∧ ∃ v rest, s.host.queue = .write 0x00 4 v :: rest) ∨
    (t.io.busy = false ∧ (coreMoves s = true ∨ resetNext s)) := by
  rcases step_effect h with ⟨hm, hcore⟩ | ⟨hreset, hio, -⟩ | ⟨-, -, hsame | ⟨-, hset, hwrite⟩⟩
  · have hidle : t.io.busy = false := by
      rcases coreStep_effect hcore with ⟨i, u, -, -, rfl⟩ | ⟨e, -, -, rfl⟩ <;> simp
    exact .inr (.inr ⟨hidle, .inl hm⟩)
  · exact .inr (.inr ⟨by rw [hio]; rfl, .inr hreset⟩)
  · exact .inl hsame
  · exact .inr (.inl ⟨hset, hwrite⟩)

end

/-- A bit that moves only by the events `SetBy`, to 1, and `ClearBy`, to 0, has changed by the one that fits. -/
theorem changes_of_moves {a b : Bool} {SetBy ClearBy : Prop}
    (h : b = a ∨ (b = true ∧ SetBy) ∨ (b = false ∧ ClearBy)) :
    (a = false → b = true → SetBy) ∧ (a = true → b = false → ClearBy) := by
  rcases h with rfl | ⟨rfl, hset⟩ | ⟨rfl, hclear⟩
  · simp +contextual
  · simp [hset]
  · simp [hclear]

theorem step_pst_changes {s t : State} (h : step s = .next t) :
    (s.p.pst ≠ .absorb → t.p.pst = .absorb → executes .pInit s) ∧
    (s.p.pst ≠ .spent → t.p.pst = .spent → executes .pFinal s ∨ executes .pVerify s) ∧
    (s.p.pst ≠ .unkeyed → t.p.pst = .unkeyed → executes .pClear s ∨ resetNext s) := by
  rcases step_pst_moves h with hto | ⟨hto, hby⟩ | ⟨hto, hby⟩ | ⟨hto, hby⟩ <;> rw [hto]
  · simp +contextual
  · simp [hby]
  · simp [hby]
  · simp [hby]

theorem step_matched_changes {s t : State} (h : step s = .next t) :
    (t.io.matched = true → s.io.matched = true ∧ coreMoves s = false ∨
      executes .pVerify s ∧ s.p.pst = .absorb ∧ computeTag s.p = tagOperand s.io.din) ∧
    (s.io.matched = true → t.io.matched = false → coreMoves s = true ∨ resetNext s) := by
  rcases step_matched_moves h with ⟨hsame, hm⟩ | ⟨hcleared, hby⟩ | ⟨hm, hx, hpst, hcompare⟩
  · simp +contextual [hsame, hm]
  · simp [hcleared, hby]
  · exact ⟨fun hmatch => .inr ⟨hx, hpst, eq_of_ctEq (hcompare ▸ hmatch)⟩, fun _ _ => .inl hm⟩

/-- Settles O56, flag by flag from the moves each flag has. -/
theorem flagWriters : Obligations.FlagWriters := by
  intro s t hstep
  obtain ⟨hkeyed, hunkeyed⟩ := changes_of_moves (step_keyed_moves hstep)
  obtain ⟨hused, hunused⟩ := changes_of_moves (step_used_moves hstep)
  obtain ⟨hexh, hlive⟩ := changes_of_moves (step_exh_moves hstep)
  obtain ⟨habsorb, hspent, hcleared⟩ := step_pst_changes hstep
  obtain ⟨hmatch, hmismatch⟩ := step_matched_changes hstep
  obtain ⟨hbusy, hidle⟩ := changes_of_moves (step_busy_moves hstep)
  exact ⟨hkeyed, hunkeyed, hused, hunused, hexh, hlive, habsorb, hspent, hcleared, hmatch, hmismatch, hbusy, hidle⟩

end Sys2Proof.Machine
end

section
/-! What a host can tell apart (spec/10_state.md R45): public registers and public outcomes through each host
operation. -/

namespace Sys2Proof.Machine

/-! The words a read returns (R23, R25, R26, R54). -/

theorem PublicEq.statusWord {s t : State} (h : PublicEq s t) : statusWord s.io = statusWord t.io := by
  rw [Machine.statusWord, Machine.statusWord, h.busy, h.err, h.matched, h.outlen]

theorem PublicEq.ccFlagsWord {s t : State} (h : PublicEq s t) : ccFlagsWord s.ksg = ccFlagsWord t.ksg := by
  rw [Machine.ccFlagsWord, Machine.ccFlagsWord, h.keyed, h.used, h.exh]

theorem PublicEq.pFlagsWord {s t : State} (h : PublicEq s t) : pFlagsWord s.p = pFlagsWord t.p := by
  rw [Machine.pFlagsWord, Machine.pFlagsWord, h.pst, h.pcnt]

theorem PublicEq.readReg {s t : State} (h : PublicEq s t) (r : WinReg) : readReg s r = readReg t r := by
  cases r with
  | status => exact h.statusWord
  | ccCtr => exact h.ctr
  | ccFlags => exact h.ccFlagsWord
  | pFlags => exact h.pFlagsWord
  | dout j => exact congrArg (le32 · (4 * j.val)) h.dout
  | cmd => rfl
  | din => rfl
  | reserved => rfl

theorem PublicEq.publicFlags {s t : State} (h : PublicEq s t) : publicFlags s = publicFlags t := by
  rw [Machine.publicFlags, Machine.publicFlags, h.keyed, h.used, h.exh, h.pst, h.pcnt]

/-! Host operations. -/

/-- An operation that leaves the registers of the CORE leaves two states as alike as their hosts. -/
theorem PublicEq.of_host {s t s' t' : State} (h : PublicEq s t) (hs : s'.io = s.io ∧ UnitsKept s s')
    (ht : t'.io = t.io ∧ UnitsKept t t') (hhost : s'.host = t'.host) : PublicEq s' t' := by
  obtain ⟨hsio, hsksg, -, hsp⟩ := hs
  obtain ⟨htio, htksg, -, htp⟩ := ht
  obtain ⟨hlcmd, hbusy, herr, hmatched, houtlen, hdout, hctr, hexh, hkeyed, hused, hpst, hpcnt, -⟩ := h
  constructor <;> simpa only [hsio, hsksg, hsp, htio, htksg, htp]

theorem PublicEq.servedRead {s t : State} (h : PublicEq s t) (r : WinReg) :
    PublicEq (servedRead r s) (servedRead r t) := by
  refine h.of_host ⟨by simp, by simp, by simp, by simp⟩ ⟨by simp, by simp, by simp, by simp⟩ ?_
  simp only [Machine.servedRead, freeDraw, takeDraw, recordRead, h.readReg r, h.busy, h.host]
  split <;> rfl

theorem PublicEq.pollStatus {s t : State} (h : PublicEq s t) : PublicEq (pollStatus s) (pollStatus t) := by
  refine h.of_host ⟨by simp, by simp, by simp, by simp⟩ ⟨by simp, by simp, by simp, by simp⟩ ?_
  have hread := (h.servedRead .status).host
  simp only [Machine.pollStatus, h.busy, hread]
  split
  · rfl
  · exact hread

theorem PublicEq.popOp {s t : State} (h : PublicEq s t) (rest : List HostOp) :
    PublicEq (popOp rest s) (popOp rest t) :=
  h.of_host ⟨by simp, by simp, by simp, by simp⟩ ⟨by simp, by simp, by simp, by simp⟩ (by
    simp only [Machine.popOp, h.host])

theorem PublicEq.startCommand {s t : State} (h : PublicEq s t) (w : Word) :
    PublicEq (startCommand w s) (startCommand w t) := by
  have hhost : (Machine.startCommand w s).host = (Machine.startCommand w t).host := by
    simp only [Machine.startCommand, h.publicFlags, h.host]
  obtain ⟨-, -, herr, hmatched, houtlen, hdout, hctr, hexh, hkeyed, hused, hpst, hpcnt, -⟩ := h
  refine ⟨?_, ?_, ?_, ?_, ?_, ?_, ?_, ?_, ?_, ?_, ?_, ?_, hhost⟩ <;> simp [*]

theorem PublicEq.writeDin {s t : State} (h : PublicEq s t) (j : Fin 16) (v : Word) :
    PublicEq (writeDin j v s) (writeDin j v t) := by
  obtain ⟨hlcmd, hbusy, herr, hmatched, houtlen, hdout, hctr, hexh, hkeyed, hused, hpst, hpcnt, hhost⟩ := h
  constructor <;> simpa

theorem PublicEq.applyReset {s t : State} (h : PublicEq s t) : PublicEq (applyReset s) (applyReset t) := by
  constructor <;> simp [h.host]

theorem PublicEq.memRead {s t : State} (h : PublicEq s t) (off : BitVec 8) (size : Nat) :
    PublicOutcome (memRead off size s) (memRead off size t) := by
  unfold Machine.memRead
  split
  · exact h.servedRead _
  · rfl

theorem PublicEq.servedWrite {s t : State} (h : PublicEq s t) (r : WinReg) (v : Word) :
    PublicOutcome (servedWrite r v s) (servedWrite r v t) := by
  cases r with
  | cmd =>
    simp only [Machine.servedWrite, h.busy]
    split
    · rfl
    · exact h.startCommand v
  | din j =>
    simp only [Machine.servedWrite, h.busy]
    split
    · rfl
    · exact h.writeDin j v
  | _ => exact h

theorem PublicEq.memWrite {s t : State} (h : PublicEq s t) (off : BitVec 8) (size : Nat) (v : Word) :
    PublicOutcome (memWrite off size v s) (memWrite off size v t) := by
  unfold Machine.memWrite
  split
  · exact h.servedWrite _ v
  · rfl

theorem PublicEq.serveOp {s t : State} (h : PublicEq s t) (op : HostOp) :
    PublicOutcome (serveOp op s) (serveOp op t) := by
  cases op with
  | read off size => exact h.memRead off size
  | write off size v => exact h.memWrite off size v
  | poll => exact h.pollStatus
  | reset => exact h.applyReset

theorem PublicEq.coreMoves {s t : State} (h : PublicEq s t) : coreMoves s = coreMoves t := by
  rw [Machine.coreMoves, Machine.coreMoves, h.busy, h.host]

/-- Settles O57: the same agent moves in both states, and each operation of the HOST is a function of what it may
see. -/
theorem hostCannotReadSecrets : Obligations.HostCannotReadSecrets := by
  intro s t h hm
  rw [step_eq_hostStep hm, step_eq_hostStep (h.coreMoves ▸ hm)]
  cases hq : s.host.queue with
  | nil =>
    rw [hostStep_nil hq, hostStep_nil (h.host ▸ hq)]
    exact h
  | cons op rest =>
    rw [hostStep_cons hq, hostStep_cons (h.host ▸ hq)]
    exact (h.popOp rest).serveOp op

end Sys2Proof.Machine
end

section
/-! The operand and result buffers, the flag words and the start of a command (spec/10_state.md R22-R28). -/

namespace Sys2Proof.Machine

/-! The window (R51, R54, R55). -/

theorem servedAccess_din (j : Fin 16) : servedAccess (BitVec.ofNat 8 (0x40 + 4 * j.val)) 4 = true := by
  decide +revert

theorem regAt_din (j : Fin 16) : regAt (BitVec.ofNat 8 (0x40 + 4 * j.val)) = .din j := by
  decide +revert

theorem servedAccess_dout (j : Fin 16) : servedAccess (BitVec.ofNat 8 (0x80 + 4 * j.val)) 4 = true := by
  decide +revert

theorem regAt_dout (j : Fin 16) : regAt (BitVec.ofNat 8 (0x80 + 4 * j.val)) = .dout j := by
  decide +revert

theorem memRead_served {off : BitVec 8} {size : Nat} (h : servedAccess off size = true) (s : State) :
    memRead off size s = .next (servedRead (regAt off) s) := if_pos h

theorem memWrite_served {off : BitVec 8} {size : Nat} (h : servedAccess off size = true) (v : Word) (s : State) :
    memWrite off size v s = servedWrite (regAt off) v s := if_pos h

/-- The value a served read adds to what the HOST has read (R54, R240). -/
theorem servedRead_seen (r : WinReg) (s : State) :
    (servedRead r s).host.seen =
      (if s.io.busy then readRegBusy (freeDraw s) r else readReg s r) :: s.host.seen := by
  unfold servedRead
  split <;> simp

theorem dinWithWord_getElem (din : Vector Byte 64) (j : Fin 16) (v : Word) (i : Fin 64) :
    (dinWithWord din j v)[i] = if i.val / 4 = j.val then byteOf v (i.val % 4) else din[i] := by
  simp [dinWithWord]

/-! DIN and DOUT (R27, R28). -/

theorem coreStep_din {s t : State} (h : coreStep s = .next t) : t.io.din = zeros 8 64 := by
  rcases coreStep_effect h with ⟨i, u, -, -, rfl⟩ | ⟨e, -, -, rfl⟩ <;> simp

/-- Settles O33: the window writes one word of DIN and reads 0 from it, and the frame's end clears it. -/
theorem dinLifecycle : Obligations.DinLifecycle := by
  refine ⟨rfl, fun s j v hb => ?write, fun s j => ?read, fun s => ?cleared⟩
  case write =>
    refine ⟨writeDin j v s, ?_, fun i => ?_⟩
    · rw [memWrite_served (servedAccess_din j), regAt_din]
      simp [servedWrite, hb]
    · rw [writeDin_io_din, dinWithWord_getElem]
  case read =>
    refine ⟨servedRead (.din j) s, ?_, ?_⟩
    · rw [memRead_served (servedAccess_din j), regAt_din]
    · rw [servedRead_seen]
      simp [readRegBusy, readReg]
  case cleared =>
    obtain ⟨t, ht⟩ := coreStep_next s
    exact ⟨t, ht, coreStep_din ht⟩

/-- Settles O34: a DOUT write is ignored, and the interface invariant holds after every command. -/
theorem doutLifecycle : Obligations.DoutLifecycle := by
  refine ⟨rfl, fun s j v => ?write, fun s => ?command⟩
  case write =>
    rw [memWrite_served (servedAccess_dout j), regAt_dout]
    rfl
  case command =>
    obtain ⟨t, ht⟩ := coreStep_next s
    have hio := coreStep_interfaceInv ht
    exact ⟨t, ht, hio.outlen_le, hio.dout_tail⟩

/-! The flag words (R23, R25, R26). -/

/-- A bit field of a 32-bit word given as a number. -/
theorem extractLsb'_ofNat_eq {n lo len : Nat} {x : BitVec len} (hn : n < 2 ^ 32) (h : n / 2 ^ lo % 2 ^ len = x.toNat) :
    (BitVec.ofNat 32 n).extractLsb' lo len = x := by
  apply BitVec.eq_of_toNat_eq
  rw [BitVec.extractLsb'_toNat, BitVec.toNat_ofNat, Nat.mod_eq_of_lt hn, Nat.shiftRight_eq_div_pow, h]

/-- A one-bit field. -/
theorem extractLsb'_ofNat_eq_ofBool {n lo : Nat} {b : Bool} (hn : n < 2 ^ 32) (h : n / 2 ^ lo % 2 = b.toNat) :
    (BitVec.ofNat 32 n).extractLsb' lo 1 = BitVec.ofBool b :=
  extractLsb'_ofNat_eq hn (by rw [BitVec.toNat_ofBool, pow_one, h])

/-- A field no part of the number reaches. -/
theorem extractLsb'_ofNat_eq_zero {n lo len : Nat} (hn : n < 2 ^ 32) (h : n / 2 ^ lo % 2 ^ len = 0) :
    (BitVec.ofNat 32 n).extractLsb' lo len = 0 :=
  extractLsb'_ofNat_eq hn (h.trans BitVec.toNat_zero.symm)

theorem statusWord_fields (io : Interface) :
    (statusWord io).extractLsb' 0 1 = BitVec.ofBool io.busy ∧ (statusWord io).extractLsb' 1 3 = 0 ∧
    (statusWord io).extractLsb' 4 4 = io.err.code ∧ (statusWord io).extractLsb' 8 1 = BitVec.ofBool io.matched ∧
    (statusWord io).extractLsb' 9 7 = 0 ∧ (statusWord io).extractLsb' 16 7 = io.outlen ∧
    (statusWord io).extractLsb' 23 9 = 0 := by
  have hbusy := Bool.toNat_le io.busy
  have herr := io.err.code.isLt
  have hmatched := Bool.toNat_le io.matched
  have houtlen := io.outlen.isLt
  exact ⟨extractLsb'_ofNat_eq_ofBool (by omega) (by omega),
    extractLsb'_ofNat_eq_zero (by omega) (by omega),
    extractLsb'_ofNat_eq (by omega) (by omega),
    extractLsb'_ofNat_eq_ofBool (by omega) (by omega),
    extractLsb'_ofNat_eq_zero (by omega) (by omega),
    extractLsb'_ofNat_eq (by omega) (by omega),
    extractLsb'_ofNat_eq_zero (by omega) (by omega)⟩

theorem ccFlagsWord_fields (k : Ksg) :
    (ccFlagsWord k).extractLsb' 0 1 = BitVec.ofBool k.keyed ∧ (ccFlagsWord k).extractLsb' 1 1 = BitVec.ofBool k.used ∧
    (ccFlagsWord k).extractLsb' 2 1 = BitVec.ofBool k.exh ∧ (ccFlagsWord k).extractLsb' 3 29 = 0 := by
  have hkeyed := Bool.toNat_le k.keyed
  have hused := Bool.toNat_le k.used
  have hexh := Bool.toNat_le k.exh
  exact ⟨extractLsb'_ofNat_eq_ofBool (by omega) (by omega),
    extractLsb'_ofNat_eq_ofBool (by omega) (by omega),
    extractLsb'_ofNat_eq_ofBool (by omega) (by omega),
    extractLsb'_ofNat_eq_zero (by omega) (by omega)⟩

theorem pFlagsWord_fields (p : P1305) :
    (pFlagsWord p).extractLsb' 0 2 = p.pst.code ∧ (pFlagsWord p).extractLsb' 2 6 = 0 ∧
    (pFlagsWord p).extractLsb' 8 5 = p.pcnt ∧ (pFlagsWord p).extractLsb' 13 19 = 0 := by
  have hpst := p.pst.code.isLt
  have hpcnt := p.pcnt.isLt
  exact ⟨extractLsb'_ofNat_eq (by omega) (by omega),
    extractLsb'_ofNat_eq_zero (by omega) (by omega),
    extractLsb'_ofNat_eq (by omega) (by omega),
    extractLsb'_ofNat_eq_zero (by omega) (by omega)⟩

theorem pst_code_ne_three (x : Pst) : x.code ≠ 3 := by
  cases x <;> decide

/-- Settles O44: each word is the sum of its fields, every field below the next one's place. -/
theorem flagWords : Obligations.FlagWords := by
  refine ⟨⟨rfl, rfl, rfl, rfl, rfl⟩, ⟨rfl, rfl, rfl⟩, statusWord_fields, ccFlagsWord_fields, fun p => ?_⟩
  obtain ⟨hpst, hlow, hpcnt, hhigh⟩ := pFlagsWord_fields p
  exact ⟨hpst, hlow, hpcnt, hhigh, pst_code_ne_three p.pst⟩

/-! The start of a command (R22). -/

/-- Settles O43: a CMD write is `startCommand`, whose word the CORE's step then decodes. -/
theorem commandStarts : Obligations.CommandStarts := by
  refine ⟨rfl, fun s w hb => ⟨startCommand w s, ?write, by simp, by simp, ⟨by simp, by simp, by simp⟩, by simp,
    by simp, by simp, by simp, by simp, fun i hi => ?runs, fun e he => ?illegal⟩, fun s => ?read⟩
  case write =>
    rw [memWrite_served rfl]
    exact if_neg (by simp [hb])
  case runs => exact coreStep_of_decode_ok (by simpa using hi)
  case illegal => exact ⟨_, coreStep_of_decode_error (e := e) (by simpa using he), turnedAway_raise _ _⟩
  case read =>
    refine ⟨servedRead .cmd s, memRead_served rfl s, ?_⟩
    rw [servedRead_seen]
    simp [readRegBusy, readReg]

/-! A command word placed in LCMD (R64). -/

/-- The decoder reads a well-formed command from its word (R80-R84). -/
theorem decode_encode {i : Instr} (h : i.wellFormed = true) : decode (encode i) = .ok i := by
  obtain ⟨hrsv, hlen, hop⟩ := Laws.WordFields.fields i
  have hdecode : decode (encode i) = decodeOp i.opcode i.lenBits := by
    rw [decode, hrsv, hlen, hop]
    exact if_neg (fun hne => hne rfl)
  rw [hdecode]
  cases i with
  | ccXor len => exact if_pos h
  | pUpdate len => exact if_pos h
  | _ => rfl

theorem decodeTableWord_toNat (w : Word) {i : Instr} (h : decode w = .ok i) :
    decodeTableWord 32 w.toNat = some i := by
  have hword : tableWord 32 w.toNat = some w := by
    simp [tableWord, Nat.mod_eq_of_lt w.isLt, w.isLt]
  simp [decodeTableWord, hword, h]

theorem fetchWord_toNat (w : Word) : fetchWord 32 w.toNat = w := by
  simp [fetchWord, Nat.mod_eq_of_lt w.isLt]

/-- The step after a latched word is the command it decodes to, whatever the HOST has queued. -/
theorem step_latchCommand {w : Word} {i : Instr} (h : decode w = .ok i) (s : State) :
    step (latchCommand w s) = exec i (latchCommand w s) := by
  have hmoves : coreMoves (latchCommand w s) = true :=
    (coreMoves_eq_true_iff _).mpr ⟨by simp, .inr (by simp)⟩
  rw [step_eq_coreStep hmoves]
  exact coreStep_of_decode_ok (by simpa using h)

/-- Settles O47: the word of a well-formed command decodes to it, and a latched word runs next. -/
theorem fetchWordRuns : Obligations.FetchWordRuns := by
  intro i s hwf
  have hdecode := decode_encode hwf
  refine ⟨decodeTableWord_toNat _ hdecode, ?_⟩
  rw [State.withFetchWord, fetchWord_toNat]
  exact step_latchCommand hdecode s

end Sys2Proof.Machine
end

section
/-! The register window (spec/20_memory.md R52-R55): the accesses it serves, what a read returns and what a write
changes while BUSY = 0, and the byte order of DIN and DOUT. -/

namespace Sys2Proof.Machine

/-! The served accesses (R52). -/

theorem servedAccess_iff (off : BitVec 8) (size : Nat) :
    servedAccess off size = true ↔ size = 4 ∧ off.toNat % 4 = 0 := by
  simp [servedAccess]

theorem servedAccess_aligned {off : BitVec 8} (haligned : off.toNat % 4 = 0) : servedAccess off 4 = true :=
  (servedAccess_iff off 4).mpr ⟨rfl, haligned⟩

theorem memRead_accessFault_iff (off : BitVec 8) (size : Nat) (s : State) :
    memRead off size s = .fault .accessFault ↔ servedAccess off size = false := by
  rcases memRead_cases (off := off) (size := size) (s := s) rfl with ⟨hr, hserved⟩ | ⟨hr, hserved⟩ <;>
    simp [hr, hserved]

theorem memWrite_accessFault_iff (off : BitVec 8) (size : Nat) (v : Word) (s : State) :
    memWrite off size v s = .fault .accessFault ↔ servedAccess off size = false := by
  rcases memWrite_cases (off := off) (size := size) (v := v) (s := s) rfl with
    ⟨hr, hserved⟩ | ⟨hr, hserved, -⟩ | ⟨hr, hserved, -⟩ | ⟨j, hr, hserved, -⟩ | ⟨hr, hserved, -⟩ <;>
    simp [hr, hserved]

/-- Settles O40: a read or write is an AccessFault exactly where the window does not serve the access. -/
theorem unservedAccessFaults : Obligations.UnservedAccessFaults := by
  intro s off size v
  have hunserved : servedAccess off size = false ↔ size ≠ 4 ∨ off.toNat % 4 ≠ 0 := by
    rw [← Bool.not_eq_true, servedAccess_iff, not_and_or]
  exact ⟨(memRead_accessFault_iff off size s).trans hunserved,
    (memWrite_accessFault_iff off size v s).trans hunserved⟩

/-! The offsets of the DIN and DOUT words (R51). -/

/-- An aligned offset in a range of sixteen words is the offset of one of them. -/
theorem exists_wordOffset {off : BitVec 8} {base : Nat} (haligned : off.toNat % 4 = 0) (hbase : base % 4 = 0)
    (hrange : base ≤ off.toNat ∧ off.toNat < base + 0x40) :
    ∃ j : Fin 16, off = BitVec.ofNat 8 (base + 4 * j.val) := by
  refine ⟨⟨(off.toNat - base) / 4, by omega⟩, BitVec.eq_of_toNat_eq ?_⟩
  have hoff : base + 4 * ((off.toNat - base) / 4) = off.toNat := by omega
  simp [hoff]

theorem toNat_dinOffset (j : Fin 16) : (BitVec.ofNat 8 (0x40 + 4 * j.val)).toNat = 0x40 + 4 * j.val :=
  Nat.mod_eq_of_lt (by omega)

theorem toNat_doutOffset (j : Fin 16) : (BitVec.ofNat 8 (0x80 + 4 * j.val)).toNat = 0x80 + 4 * j.val :=
  Nat.mod_eq_of_lt (by omega)

theorem regAt_din_range {off : BitVec 8} {j : Fin 16} (h : regAt off = .din j) :
    0x40 ≤ off.toNat ∧ off.toNat < 0x80 := by
  unfold regAt at h
  split_ifs at h
  omega

/-! Reads with BUSY = 0 (R54). -/

theorem servedRead_idle {s : State} (hb : s.io.busy = false) (r : WinReg) :
    servedRead r s = recordRead (readReg s r) s := if_neg (by simp [hb])

/-- The word at an aligned offset as R54 lists it: the DOUT range is one clause, by its byte offset. -/
theorem readReg_regAt (s : State) {off : BitVec 8} (haligned : off.toNat % 4 = 0) :
    readReg s (regAt off) =
      if off.toNat = 0x04 then statusWord s.io else if off.toNat = 0x08 then s.ksg.ctr
      else if off.toNat = 0x0C then ccFlagsWord s.ksg else if off.toNat = 0x10 then pFlagsWord s.p
      else if 0x80 ≤ off.toNat ∧ off.toNat < 0xC0 then le32 s.io.dout (off.toNat - 0x80) else 0 := by
  by_cases hdout : 0x80 ≤ off.toNat ∧ off.toNat < 0xC0
  · rw [if_neg (by omega), if_neg (by omega), if_neg (by omega), if_neg (by omega), if_pos hdout]
    obtain ⟨j, rfl⟩ := exists_wordOffset haligned rfl hdout
    rw [regAt_dout, toNat_doutOffset, Nat.add_sub_cancel_left, readReg]
  · rw [if_neg hdout]
    by_cases hcmd : off.toNat = 0x00
    · simp [regAt, readReg, hcmd]
    · unfold regAt
      rw [if_neg hcmd]
      split_ifs
      any_goals rfl
      -- What is left is the DOUT range, which `hdout` excludes.
      omega

/-- Settles O37: a read with BUSY = 0 only records the word of the register at its offset. -/
theorem idleReads : Obligations.IdleReads := by
  intro s off hb haligned
  refine ⟨recordRead (readReg s (regAt off)) s, ?read, by simp, ⟨by simp, by simp, by simp⟩, by simp, by simp,
    by simp, ?seen⟩
  case read => rw [memRead_served (servedAccess_aligned haligned), servedRead_idle hb]
  case seen => rw [recordRead_host_seen, readReg_regAt s haligned]

/-! Writes with BUSY = 0 (R55). -/

theorem memWrite_cmd (v : Word) {s : State} (hb : s.io.busy = false) :
    memWrite 0x00 4 v s = .next (startCommand v s) := by
  rw [memWrite_served rfl]
  exact if_neg (by simp [hb])

theorem memWrite_din (j : Fin 16) (v : Word) {s : State} (hb : s.io.busy = false) :
    memWrite (BitVec.ofNat 8 (0x40 + 4 * j.val)) 4 v s = .next (writeDin j v s) := by
  rw [memWrite_served (servedAccess_din j), regAt_din]
  exact if_neg (by simp [hb])

theorem memWrite_ignored {off : BitVec 8} (haligned : off.toNat % 4 = 0) (hcmd : regAt off ≠ .cmd)
    (hdin : ∀ j, regAt off ≠ .din j) (v : Word) (s : State) : memWrite off 4 v s = .next s := by
  rw [memWrite_served (servedAccess_aligned haligned)]
  cases hreg : regAt off with
  | cmd => exact absurd hreg hcmd
  | din j => exact absurd hreg (hdin j)
  | _ => rfl

/-- The bytes a DIN write changes, by their place in DIN. -/
theorem dinWithWord_getElem_range (din : Vector Byte 64) (j : Fin 16) (v : Word) (i : Fin 64) :
    (dinWithWord din j v)[i] =
      if 4 * j.val ≤ i.val ∧ i.val < 4 * j.val + 4 then byteOf v (i.val - 4 * j.val) else din[i] := by
  have hword : i.val / 4 = j.val ↔ 4 * j.val ≤ i.val ∧ i.val < 4 * j.val + 4 := by omega
  rw [dinWithWord_getElem, if_congr hword rfl rfl]
  refine ite_congr rfl (fun hin => ?_) (fun _ => rfl)
  rw [show i.val % 4 = i.val - 4 * j.val by omega]

/-- Settles O38: an aligned write with BUSY = 0 starts a command at 0x00, is `writeDin` in the DIN range and is
ignored elsewhere. -/
theorem idleWrites : Obligations.IdleWrites := by
  intro s off v hb haligned
  refine ⟨fun hzero => ?cmd, fun hrange => ?din, fun hcmd hrange => ?ignored⟩
  case cmd =>
    subst hzero
    exact ⟨startCommand v s, memWrite_cmd v hb, by simp, by simp⟩
  case din =>
    obtain ⟨j, rfl⟩ := exists_wordOffset haligned rfl hrange
    refine ⟨writeDin j v s, memWrite_din j v hb, ⟨by simp, by simp, by simp⟩, by simp, fun i => ?_,
      by simp, by simp [hb], by simp, by simp, by simp, by simp⟩
    rw [toNat_dinOffset, Nat.add_sub_cancel_left, writeDin_io_din]
    exact dinWithWord_getElem_range s.io.din j v i
  case ignored =>
    exact memWrite_ignored haligned (fun h => hcmd (regAt_eq_cmd h)) (fun _ h => hrange (regAt_din_range h)) v s

/-! The byte order of the window (R53). -/

theorem byteAt_dinWithWord (din : Vector Byte 64) (j : Fin 16) (v : Word) {k : Nat} (hk : k < 4) :
    byteAt (dinWithWord din j v) (4 * j.val + k) = byteOf v k := by
  have hin : 4 * j.val + k < 64 := by omega
  rw [byteAt_eq _ hin]
  refine (dinWithWord_getElem_range din j v ⟨4 * j.val + k, hin⟩).trans ?_
  rw [if_pos (by simp [hk]), Nat.add_sub_cancel_left]

/-- The lane a command reads is the word the HOST wrote. -/
theorem le32_dinWithWord (din : Vector Byte 64) (j : Fin 16) (v : Word) :
    le32 (dinWithWord din j v) (4 * j.val) = v := by
  have hbyte (k : Nat) (hk : k < 4) := byteAt_dinWithWord din j v hk
  have hfirst : byteAt (dinWithWord din j v) (4 * j.val) = byteOf v 0 := hbyte 0 (by decide)
  rw [le32, hfirst, hbyte 1 (by decide), hbyte 2 (by decide), hbyte 3 (by decide), word32_byteOf]

theorem memRead_dout (j : Fin 16) {s : State} (hb : s.io.busy = false) :
    memRead (BitVec.ofNat 8 (0x80 + 4 * j.val)) 4 s = .next (recordRead (le32 s.io.dout (4 * j.val)) s) := by
  rw [memRead_served (servedAccess_dout j), regAt_dout, servedRead_idle hb, readReg]

/-- Settles O39: `byteOf` and `word32` are the little-endian order, and a word is made of its four bytes. -/
theorem windowByteOrder : Obligations.WindowByteOrder := by
  intro s j v hb
  refine ⟨⟨writeDin j v s, memWrite_din j v hb, fun k => ?bytes, ?lane⟩, _, memRead_dout j hb, ?read⟩
  case bytes => rw [writeDin_io_din, byteAt_dinWithWord _ j v k.isLt, byteOf]
  case lane => rw [writeDin_io_din, le32_dinWithWord]
  case read => rw [recordRead_host_seen, List.map_cons, le32, word32_toNat]

end Sys2Proof.Machine
end

section
/-! The decoder inverts the encoder, and which words it rejects (spec/30_encoding.md R80-R86). -/

namespace Sys2Proof.Machine

/-! The decoder on the fields of a word (R83). -/

theorem withLen_fields {op : BitVec 8} {len : BitVec 7} {i j : Instr} (h : withLen len i = .ok j)
    (hwf : i.wellFormed = legalLen len) (hlen : i.lenBits = len) (hop : op = i.opcode) :
    j.wellFormed = true ∧ j.opcode = op ∧ j.lenBits = len := by
  unfold withLen at h
  split at h
  next hlegal =>
    cases h
    exact ⟨hwf.trans hlegal, hop.symm, hlen⟩
  next => cases h

theorem withoutLen_fields {op : BitVec 8} {len : BitVec 7} {i j : Instr} (h : withoutLen len i = .ok j)
    (hwf : i.wellFormed = true) (hlen : i.lenBits = 0) (hop : op = i.opcode) :
    j.wellFormed = true ∧ j.opcode = op ∧ j.lenBits = len := by
  unfold withoutLen at h
  split at h
  next hzero =>
    cases h
    exact ⟨hwf, hop.symm, hlen.trans hzero.symm⟩
  next => cases h

/-- A command of the opcode map (R84) has the OP and the LEN it was selected by. -/
theorem decodeOp_fields {op : BitVec 8} {len : BitVec 7} {i : Instr} (h : decodeOp op len = .ok i) :
    i.wellFormed = true ∧ i.opcode = op ∧ i.lenBits = len := by
  unfold decodeOp at h
  split_ifs at h with h01 h02 h03 h04 h05 h11 h12 h13 h14 h15
  · exact withoutLen_fields h rfl rfl h01
  · exact withoutLen_fields h rfl rfl h02
  · exact withoutLen_fields h rfl rfl h03
  · exact withLen_fields h rfl rfl h04
  · exact withoutLen_fields h rfl rfl h05
  · exact withoutLen_fields h rfl rfl h11
  · exact withLen_fields h rfl rfl h12
  · exact withoutLen_fields h rfl rfl h13
  · exact withoutLen_fields h rfl rfl h14
  · exact withoutLen_fields h rfl rfl h15

/-! The fields make up the word (R80). -/

theorem opField_toNat (w : Word) : (opField w).toNat = w.toNat % 2 ^ 8 := by
  simp [opField]

theorem lenField_toNat (w : Word) : (lenField w).toNat = w.toNat / 2 ^ 8 % 2 ^ 7 := by
  simp [lenField, Nat.shiftRight_eq_div_pow]

theorem rsvField_toNat (w : Word) : (rsvField w).toNat = w.toNat / 2 ^ 15 := by
  have hw := w.isLt
  simp only [rsvField, BitVec.extractLsb'_toNat, Nat.shiftRight_eq_div_pow]
  omega

theorem rsvField_eq_zero_iff (w : Word) : rsvField w = 0 ↔ w.toNat / 2 ^ 15 = 0 := by
  rw [← rsvField_toNat]
  exact BitVec.toNat_inj.symm

/-- A word whose RSV is 0 is the encoding of every command with its OP and LEN. -/
theorem encode_eq_of_fields {w : Word} {i : Instr} (hrsv : rsvField w = 0) (hop : i.opcode = opField w)
    (hlen : i.lenBits = lenField w) : encode i = w := by
  apply BitVec.eq_of_toNat_eq
  rw [rsvField_eq_zero_iff] at hrsv
  rw [encode, hop, hlen, opField_toNat, lenField_toNat, BitVec.toNat_ofNat]
  omega

theorem decode_eq_decodeOp {w : Word} (hrsv : rsvField w = 0) : decode w = decodeOp (opField w) (lenField w) :=
  if_neg (not_not_intro hrsv)

theorem decode_eq_reservedBitSet {w : Word} (hrsv : rsvField w ≠ 0) : decode w = .error .reservedBitSet :=
  if_pos hrsv

/-- Only a well-formed command's own word decodes to it. -/
theorem encode_of_decode {w : Word} {i : Instr} (h : decode w = .ok i) : i.wellFormed = true ∧ encode i = w := by
  by_cases hrsv : rsvField w = 0
  · rw [decode_eq_decodeOp hrsv] at h
    obtain ⟨hwf, hop, hlen⟩ := decodeOp_fields h
    exact ⟨hwf, encode_eq_of_fields hrsv hop hlen⟩
  · rw [decode_eq_reservedBitSet hrsv] at h
    cases h

/-- Settles O2: `decode_encode` is one direction; the other follows as OP, LEN and RSV = 0 make up the word. -/
theorem decodeInvertsEncode : Obligations.DecodeInvertsEncode :=
  fun _ _ => ⟨encode_of_decode, fun ⟨hwf, hw⟩ => hw ▸ decode_encode hwf⟩

/-! The rejected words (R85). -/

theorem withLen_error_iff (len : BitVec 7) (i : Instr) :
    (∃ e, withLen len i = .error e) ↔ 65 ≤ len.toNat := by
  unfold withLen
  split <;> simp_all [legalLen] <;> omega

theorem withoutLen_error_iff (len : BitVec 7) (i : Instr) :
    (∃ e, withoutLen len i = .error e) ↔ len.toNat ≠ 0 := by
  unfold withoutLen
  split <;> simp_all [← BitVec.toNat_inj]

/-- One case per row of the opcode map, and a last one for an OP it does not list. -/
theorem decodeOp_error_iff (op : BitVec 8) (len : BitVec 7) :
    (∃ e, decodeOp op len = .error e) ↔
      op.toNat = 0x00 ∨ (0x06 ≤ op.toNat ∧ op.toNat ≤ 0x10) ∨ 0x16 ≤ op.toNat ∨
        (len.toNat ≠ 0 ∧ op.toNat ≠ 0x04 ∧ op.toNat ≠ 0x12) ∨
        (65 ≤ len.toNat ∧ (op.toNat = 0x04 ∨ op.toNat = 0x12)) := by
  unfold decodeOp
  simp only [← BitVec.toNat_inj, BitVec.toNat_ofNat, BitVec.ofNat_eq_ofNat]
  split_ifs
  all_goals simp only [withLen_error_iff, withoutLen_error_iff, Except.error.injEq, exists_eq', true_iff]
  all_goals omega

/-- The words R85 lists, and only they, are rejected. -/
theorem decode_error_iff (w : Word) :
    (∃ e, decode w = .error e) ↔
      (opField w).toNat = 0x00 ∨ (0x06 ≤ (opField w).toNat ∧ (opField w).toNat ≤ 0x10) ∨
        0x16 ≤ (opField w).toNat ∨ (rsvField w).toNat ≠ 0 ∨
        ((lenField w).toNat ≠ 0 ∧ (opField w).toNat ≠ 0x04 ∧ (opField w).toNat ≠ 0x12) ∨
        (65 ≤ (lenField w).toNat ∧ ((opField w).toNat = 0x04 ∨ (opField w).toNat = 0x12)) := by
  by_cases hrsv : rsvField w = 0
  · rw [decode_eq_decodeOp hrsv, decodeOp_error_iff]
    simp [hrsv]
  · have hrejected : ∃ e, decode w = .error e := ⟨_, decode_eq_reservedBitSet hrsv⟩
    have hnat : (rsvField w).toNat ≠ 0 := fun hzero => hrsv (BitVec.eq_of_toNat_eq hzero)
    exact iff_of_true hrejected (.inr (.inr (.inr (.inl hnat))))

/-- A body raises IllegalCommand only for a LEN the decoder does not let through (R201). -/
theorem bodyOf_illegalCommand {i : Instr} {s : State} (h : bodyOf i s = .error .illegalCommand) :
    i.wellFormed = false := by
  cases i with
  | ccInit | ccClear | pInit | pClear => cases h
  | ccSetctr => rcases bodyCcSetctr_cases h with ⟨hr, -⟩ | ⟨hr, -⟩ <;> cases hr
  | ccBlock => rcases bodyCcBlock_cases h with ⟨hr, -⟩ | ⟨hr, -⟩ | ⟨hr, -⟩ <;> cases hr
  | ccXor len =>
    rcases bodyCcXor_cases h with ⟨-, hlen⟩ | ⟨hr, -⟩ | ⟨hr, -⟩ | ⟨hr, -⟩ | ⟨hr, -⟩
    · exact hlen
    all_goals cases hr
  | pUpdate len =>
    rcases bodyPUpdate_cases h with ⟨-, hlen⟩ | ⟨hr, -⟩ | ⟨hr, -⟩
    · exact hlen
    all_goals cases hr
  | pFinal => rcases bodyPFinal_cases h with ⟨hr, -⟩ | ⟨hr, -⟩ <;> cases hr
  | pVerify => rcases bodyPVerify_cases h with ⟨hr, -⟩ | ⟨hr, -⟩ <;> cases hr

/-- A decoded command never completes with IllegalCommand. -/
theorem exec_err_ne_illegalCommand {i : Instr} {s t : State} (hwf : i.wellFormed = true) (h : exec i s = .next t) :
    t.io.err ≠ .illegalCommand := by
  rw [exec_eq_runCommand] at h
  rcases runCommand_cases h with ⟨u, -, rfl⟩ | ⟨e, he, rfl⟩
  · simp
  · intro hillegal
    obtain rfl : e = .illegalCommand := by simpa using hillegal
    simp [bodyOf_illegalCommand he] at hwf

/-- The CORE's step ends with IllegalCommand exactly on a rejected word (R83). -/
theorem coreStep_illegalCommand_iff (s : State) :
    (∃ t, coreStep s = .next t ∧ t.io.err = .illegalCommand) ↔ ∃ e, decode s.io.lcmd = .error e := by
  constructor
  · rintro ⟨t, ht, herr⟩
    rcases coreStep_cases ht with ⟨i, hi, hx⟩ | ⟨e, he, -⟩
    · exact absurd herr (exec_err_ne_illegalCommand (encode_of_decode hi).1 hx)
    · exact ⟨e, he⟩
  · rintro ⟨e, he⟩
    exact ⟨_, coreStep_of_decode_error he, by simp⟩

/-- Settles O3: the step raises IllegalCommand exactly where the decoder rejects, which is R85's list of fields. -/
theorem illegalWordsComplete : Obligations.IllegalWordsComplete := by
  intro s
  rw [coreStep_illegalCommand_iff, decode_error_iff, opField_toNat, lenField_toNat, rsvField_toNat]

/-- Settles O1: each word is evaluated. -/
theorem commandWordsDecode : Obligations.CommandWordsDecode := by
  unfold Obligations.CommandWordsDecode
  decide

end Sys2Proof.Machine
end

section
/-! A command's outcome depends on the bytes of DIN it reads and on no other (spec/30_encoding.md R82). -/

namespace Sys2Proof.Machine

/-- Two contents of DIN that agree on their first n bytes. -/
def AgreeBelow (n : Nat) (a b : Vector Byte 64) : Prop := ∀ k : Fin 64, k.val < n → a[k] = b[k]

section
variable {n : Nat} {a b : Vector Byte 64}

/-! The operands (R82). -/

theorem AgreeBelow.byteAt_congr (h : AgreeBelow n a b) {i : Nat} (hi : i < n) : byteAt a i = byteAt b i := by
  by_cases hin : i < 64
  · rw [byteAt_eq a hin, byteAt_eq b hin]
    exact h ⟨i, hin⟩ hi
  · simp [byteAt, hin]

theorem AgreeBelow.le32_congr (h : AgreeBelow n a b) {i : Nat} (hi : i + 4 ≤ n) : le32 a i = le32 b i := by
  rw [le32, le32, h.byteAt_congr (by omega), h.byteAt_congr (by omega), h.byteAt_congr (by omega),
    h.byteAt_congr (by omega)]

theorem AgreeBelow.slice_congr (h : AgreeBelow n a b) {hi : Nat} (hn : hi ≤ n) : slice a 0 hi = slice b 0 hi := by
  refine List.ext_getElem (by simp [slice_length]) fun i hia hib => ?_
  obtain ⟨hihi, hi64⟩ : i < hi ∧ i < 64 := by simpa [slice_length] using hia
  simpa [slice] using h ⟨i, hi64⟩ (by simp; omega)

theorem AgreeBelow.selectedBytes_congr {len : BitVec 7} (h : AgreeBelow len.toNat a b) (ks dout : Vector Byte 64) :
    selectedBytes len a ks dout = selectedBytes len b ks dout := by
  ext i hi
  by_cases hlen : i < len.toNat
  · have hbyte : a[i] = b[i] := h ⟨i, hi⟩ hlen
    simp [selectedBytes, hbyte]
  · simp [selectedBytes, hlen]

theorem AgreeBelow.keyOperand_congr (h : AgreeBelow 48 a b) : keyOperand a = keyOperand b :=
  congrArg Vector.ofFn (funext fun _ => h.le32_congr (by omega))

theorem AgreeBelow.nonceOperand_congr (h : AgreeBelow 48 a b) : nonceOperand a = nonceOperand b :=
  congrArg Vector.ofFn (funext fun _ => h.le32_congr (by omega))

theorem AgreeBelow.rOperand_congr (h : AgreeBelow 32 a b) : rOperand a = rOperand b :=
  congrArg leNat (h.slice_congr (by omega))

theorem AgreeBelow.sOperand_congr (h : AgreeBelow 32 a b) : sOperand a = sOperand b :=
  congrArg Vector.ofFn (funext fun _ => h.le32_congr (by omega))

theorem AgreeBelow.tagOperand_congr (h : AgreeBelow 16 a b) : tagOperand a = tagOperand b :=
  congrArg Vector.ofFn (funext fun i => h.byteAt_congr i.isLt)

end

/-! The frame (R204): DIN goes through `beginCommand` and the body untouched, and `finishCommand` clears it. -/

theorem beginCommand_withDin (din : Vector Byte 64) (s : State) :
    beginCommand (withDin din s) = withDin din (beginCommand s) := rfl

theorem finishCommand_withDin (e : ErrCode) (din : Vector Byte 64) (s : State) :
    finishCommand e (withDin din s) = finishCommand e s := rfl

theorem genBlock_withDin (din : Vector Byte 64) (s : State) : genBlock (withDin din s) = withDin din (genBlock s) := rfl

/-- A frame does not show what else DIN held if the body only hands it on. -/
theorem runCommand_withDin {body : State → Except ErrCode State} {din : Vector Byte 64} {s : State}
    (h : body (withDin din (beginCommand s)) = (body (beginCommand s)).map (withDin din)) :
    runCommand body (withDin din s) = runCommand body s := by
  cases hb : body (beginCommand s) with
  | ok u =>
    rw [hb] at h
    rw [runCommand_ok hb, runCommand_ok h, finishCommand_withDin]
  | error e =>
    rw [hb] at h
    rw [runCommand_error hb, runCommand_error h, beginCommand_withDin, finishCommand_withDin]

theorem selectOutput_withDin {len : BitVec 7} {din : Vector Byte 64} {s : State}
    (h : AgreeBelow len.toNat din s.io.din) :
    selectOutput len (withDin din s) = withDin din (selectOutput len s) := by
  simp only [selectOutput, withDin_io_din, h.selectedBytes_congr]
  rfl

/-- A body reads DIN through its operands only (R82). -/
theorem bodyOf_withDin {i : Instr} {din : Vector Byte 64} {s : State} (h : AgreeBelow (operandBytes i) din s.io.din) :
    bodyOf i (withDin din s) = (bodyOf i s).map (withDin din) := by
  cases i with
  | ccInit =>
    have hctr : initCtrOperand din = initCtrOperand s.io.din := h.le32_congr le_rfl
    simp only [bodyOf, bodyCcInit, withDin_io_din, h.keyOperand_congr, h.nonceOperand_congr, hctr]
    rfl
  | ccSetctr =>
    have hctr : setCtrOperand din = setCtrOperand s.io.din := h.le32_congr le_rfl
    simp only [bodyOf, bodyCcSetctr, withDin_io_din, withDin_ksg, hctr]
    split_ifs <;> rfl
  | ccBlock =>
    simp only [bodyOf, bodyCcBlock, withDin_ksg]
    split_ifs <;> rfl
  | ccXor len =>
    have hselect : selectOutput len (withDin din (genBlock s)) = withDin din (selectOutput len (genBlock s)) :=
      selectOutput_withDin h
    simp only [bodyOf, bodyCcXor, withDin_ksg, genBlock_withDin, hselect]
    split_ifs <;> rfl
  | pInit =>
    simp only [bodyOf, bodyPInit, withDin_io_din, h.rOperand_congr, h.sOperand_congr]
    rfl
  | pUpdate len =>
    have hmessage : messageOperand din len.toNat = messageOperand s.io.din len.toNat := h.slice_congr le_rfl
    simp only [bodyOf, bodyPUpdate, withDin_io_din, withDin_p, hmessage]
    split_ifs <;> rfl
  | pFinal =>
    simp only [bodyOf, bodyPFinal, withDin_p]
    split_ifs <;> rfl
  | pVerify =>
    simp only [bodyOf, bodyPVerify, withDin_io_din, withDin_p, h.tagOperand_congr]
    split_ifs <;> rfl
  | ccClear | pClear => rfl

/-- Settles O36: the body hands a differing DIN on, and the frame's end clears it. -/
theorem unlistedDinIgnored : Obligations.UnlistedDinIgnored := by
  intro i s din hagree
  rw [exec_eq_runCommand, exec_eq_runCommand]
  have hbody : AgreeBelow (operandBytes i) din (beginCommand s).io.din := by
    rw [beginCommand_io_din]
    exact hagree
  exact runCommand_withDin (bodyOf_withDin hbody)

end Sys2Proof.Machine
end

section
/-! The HOST's forms RDOUT, LDIN, XCMD and POLL (spec/30_encoding.md R87, R88): what a run of their bus operations
leaves. -/

namespace Sys2Proof.Machine

/-! Runs (R60). -/

theorem run_succ_iff {k : Nat} {s t : State} :
    Sys2Proof.core.run (k + 1) s = .next t ↔ ∃ u, step s = .next u ∧ Sys2Proof.core.run k u = .next t := by
  constructor
  · intro h
    cases hs : step s with
    | next u => exact ⟨u, rfl, (run_succ hs k).symm.trans h⟩
    | fault r =>
      have hstop : Sys2Proof.core.step s = .fault r := hs
      simp [Host.Core.run, hstop] at h
    | refused r =>
      have hstop : Sys2Proof.core.step s = .refused r := hs
      simp [Host.Core.run, hstop] at h
  · rintro ⟨u, hu, hk⟩
    rw [run_succ hu, hk]

theorem run_add {a b : Nat} {s t u : State} (hst : Sys2Proof.core.run a s = .next t)
    (htu : Sys2Proof.core.run b t = .next u) : Sys2Proof.core.run (a + b) s = .next u := by
  induction a generalizing s with
  | zero =>
    cases hst
    rw [Nat.zero_add, htu]
  | succ a ih =>
    obtain ⟨v, hv, hvt⟩ := run_succ_iff.mp hst
    rw [Nat.add_right_comm]
    exact run_succ_iff.mpr ⟨v, hv, ih hvt⟩

theorem UnitsKept.trans {s t u : State} (hst : UnitsKept s t) (htu : UnitsKept t u) : UnitsKept s u :=
  ⟨htu.ksg.trans hst.ksg, htu.dp.trans hst.dp, htu.p.trans hst.p⟩

/-! RDOUT (R54, R88). -/

theorem step_rd_dout {s : State} {j : Nat} {rest : List HostOp} (hj : j < 16) (hb : s.io.busy = false)
    (hq : s.host.queue = rd (BitVec.ofNat 8 (0x80 + 4 * j)) :: rest) :
    step s = .next (recordRead (le32 s.io.dout (4 * j)) (popOp rest s)) := by
  rw [step_idle hb hq]
  exact memRead_dout ⟨j, hj⟩ (s := popOp rest s) (by simpa using hb)

/-- The DOUT words js have been read, in this order: the values are recorded and no register of the CORE changed. -/
structure DoutRead (js : List Nat) (rest : List HostOp) (s t : State) : Prop where
  io : t.io = s.io
  units : UnitsKept s t
  queue : t.host.queue = rest
  seen : t.host.seen = (js.map fun j => le32 s.io.dout (4 * j)).reverse ++ s.host.seen

theorem run_doutReads {js : List Nat} {s : State} {rest : List HostOp} (hjs : ∀ j ∈ js, j < 16)
    (hb : s.io.busy = false)
    (hq : s.host.queue = (js.map fun j => rd (BitVec.ofNat 8 (0x80 + 4 * j))) ++ rest) :
    ∃ t : State, Sys2Proof.core.run js.length s = .next t ∧ DoutRead js rest s t := by
  induction js generalizing s with
  | nil => exact ⟨s, rfl, rfl, ⟨rfl, rfl, rfl⟩, hq, rfl⟩
  | cons j js ih =>
    have hstep := step_rd_dout (hjs j List.mem_cons_self) hb hq
    obtain ⟨t, ht, hio, hunits, hqueue, hseen⟩ :=
      ih (s := recordRead (le32 s.io.dout (4 * j)) (popOp (_ ++ rest) s))
        (fun k hk => hjs k (List.mem_cons_of_mem j hk)) (by simpa using hb)
        (by rw [recordRead_host_queue, popOp_host_queue])
    exact ⟨t, run_succ_iff.mpr ⟨_, hstep, ht⟩, by simpa using hio,
      .trans ⟨by simp, by simp, by simp⟩ hunits, hqueue, by simpa using hseen⟩

/-- The four bytes of a word at offset lo, joined to the bytes before them. -/
theorem slice_append_word {n lo : Nat} (b : Vector Byte n) (h : lo + 4 ≤ n) :
    slice b 0 lo ++ bytesOfWord (le32 b lo) = slice b 0 (lo + 4) := by
  have hword : (b.toList.drop lo).take 4 = [byteAt b lo, byteAt b (lo + 1), byteAt b (lo + 2), byteAt b (lo + 3)] := by
    refine List.ext_getElem (by simp; omega) fun i hi hi4 => ?_
    have hin : i < 4 := hi4
    interval_cases i <;> simp <;> rw [byteAt_eq]
  rw [le32, bytesOfWord_word32, ← hword]
  simp [slice, List.take_add]

/-- The first m words of a byte array, each little-endian, are its first 4m bytes (R53). -/
theorem flatMap_bytesOfWord_le32 {n m : Nat} (b : Vector Byte n) (h : 4 * m ≤ n) :
    ((List.range m).map fun j => le32 b (4 * j)).flatMap bytesOfWord = slice b 0 (4 * m) := by
  induction m with
  | zero => simp [slice]
  | succ m ih =>
    rw [List.range_succ, List.map_append, List.flatMap_append, ih (by omega), List.map_singleton,
      List.flatMap_singleton, slice_append_word b (by omega), Nat.mul_succ]

theorem rdoutResult_of_doutRead {n : Nat} {s t : State} {rest : List HostOp} (hn : n ≤ 64)
    (h : DoutRead (List.range ((n + 3) / 4)) rest s t) : rdoutResult n t = slice s.io.dout 0 n := by
  have hwords : rdoutWords n t = (List.range ((n + 3) / 4)).map fun j => le32 s.io.dout (4 * j) := by
    rw [rdoutWords, h.seen, List.take_left' (by simp), List.reverse_reverse]
  rw [rdoutResult, hwords, flatMap_bytesOfWord_le32 _ (by omega)]
  simp only [slice, List.drop_zero, List.take_take, Nat.sub_zero]
  rw [Nat.min_eq_left (by omega)]

/-- Settles O59: the reads record the words of DOUT in order, whose bytes are DOUT's. -/
theorem rdoutGivesResult : Obligations.RdoutGivesResult := by
  intro n s rest hn hb hq
  have hwords : ∀ j ∈ List.range ((n + 3) / 4), j < 16 := fun j hj => by
    rw [List.mem_range] at hj
    omega
  obtain ⟨t, ht, hread⟩ := run_doutReads hwords hb hq
  have hresult := rdoutResult_of_doutRead hn hread
  rw [List.length_range] at ht
  exact ⟨t, ht, hresult, by rw [hread.io, hresult], hread.io, hread.units, hread.queue⟩

/-! LDIN, the command and POLL (R55, R88). -/

/-- The word `LDIN` makes of the next bytes, filled up with 0x00. -/
def ldinWord (bytes : List Byte) : Word :=
  word32 (bytes[0]?.getD 0) (bytes[1]?.getD 0) (bytes[2]?.getD 0) (bytes[3]?.getD 0)

theorem byteOf_ldinWord (bytes : List Byte) {k : Nat} (hk : k < 4) :
    byteOf (ldinWord bytes) k = bytes[k]?.getD 0 := by
  interval_cases k <;> simp [ldinWord]

/-- `LDIN` writes four bytes, or what is left of them, and goes on with the others. -/
theorem ldinFrom_of_ne_nil {bytes : List Byte} (h : bytes ≠ []) (j : Nat) :
    ldinFrom j bytes = wr (BitVec.ofNat 8 (0x40 + 4 * j)) (ldinWord bytes) :: ldinFrom (j + 1) (bytes.drop 4) := by
  match bytes with
  | [] => exact absurd rfl h
  | [_] | [_, _] | [_, _, _] | _ :: _ :: _ :: _ :: _ => simp [ldinFrom, ldinWord]

theorem step_wr_din {s : State} {j : Nat} {v : Word} {rest : List HostOp} (hj : j < 16) (hb : s.io.busy = false)
    (hq : s.host.queue = wr (BitVec.ofNat 8 (0x40 + 4 * j)) v :: rest) :
    step s = .next (writeDin ⟨j, hj⟩ v (popOp rest s)) := by
  rw [step_idle hb hq]
  exact memWrite_din ⟨j, hj⟩ v (by simpa using hb)

/-- `m` words from DIN word j on hold the bytes, filled up with 0x00; nothing else but the queue has changed. -/
structure DinLoaded (j m : Nat) (bytes : List Byte) (rest : List HostOp) (s t : State) : Prop where
  din : ∀ k : Fin 64, t.io.din[k] =
    if 4 * j ≤ k.val ∧ k.val < 4 * (j + m) then bytes[k.val - 4 * j]?.getD 0 else s.io.din[k]
  busy : t.io.busy = false
  units : UnitsKept s t
  queue : t.host.queue = rest
  seen : t.host.seen = s.host.seen

/-- The word `LDIN` writes first, and then those it writes after it. -/
theorem DinLoaded.cons {j : Fin 16} {m : Nat} {bytes : List Byte} {queue rest : List HostOp} {s t : State}
    (h : DinLoaded (j.val + 1) m (bytes.drop 4) rest (writeDin j (ldinWord bytes) (popOp queue s)) t) :
    DinLoaded j.val (m + 1) bytes rest s t where
  din k := by
    rw [h.din k, writeDin_io_din, dinWithWord_getElem_range, popOp_io]
    by_cases hlater : 4 * (j.val + 1) ≤ k.val ∧ k.val < 4 * (j.val + 1 + m)
    · have hindex : 4 + (k.val - 4 * (j.val + 1)) = k.val - 4 * j.val := by omega
      rw [if_pos hlater, if_pos (by omega), List.getElem?_drop, hindex]
    · rw [if_neg hlater]
      by_cases hfirst : 4 * j.val ≤ k.val ∧ k.val < 4 * j.val + 4
      · rw [if_pos hfirst, if_pos (by omega), byteOf_ldinWord bytes (by omega)]
      · rw [if_neg hfirst, if_neg (by omega)]
  busy := h.busy
  units := .trans ⟨by simp, by simp, by simp⟩ h.units
  queue := h.queue
  seen := by simpa using h.seen

theorem run_ldinFrom {m j : Nat} {bytes : List Byte} {s : State} {rest : List HostOp}
    (hm : (bytes.length + 3) / 4 = m) (hfits : j + m ≤ 16) (hb : s.io.busy = false)
    (hq : s.host.queue = ldinFrom j bytes ++ rest) :
    ∃ t : State, Sys2Proof.core.run m s = .next t ∧ DinLoaded j m bytes rest s t := by
  induction m generalizing j bytes s with
  | zero =>
    obtain rfl : bytes = [] := List.eq_nil_of_length_eq_zero (by omega)
    exact ⟨s, rfl, fun k => by rw [if_neg (by omega)], hb, ⟨rfl, rfl, rfl⟩, hq, rfl⟩
  | succ m ih =>
    have hj : j < 16 := by omega
    have hne : bytes ≠ [] := fun hnil => by simp [hnil] at hm
    rw [ldinFrom_of_ne_nil hne] at hq
    have hlength : ((bytes.drop 4).length + 3) / 4 = m := by
      rw [List.length_drop]
      omega
    obtain ⟨t, ht, hloaded⟩ :=
      ih (j := j + 1) (s := writeDin ⟨j, hj⟩ (ldinWord bytes) (popOp (_ ++ rest) s)) hlength (by omega)
        (by simpa using hb) (by rw [writeDin_host, popOp_host_queue])
    exact ⟨t, run_succ_iff.mpr ⟨_, step_wr_din hj hb hq, ht⟩, hloaded.cons (j := ⟨j, hj⟩)⟩

/-- A command of the HOST's program is the CMD write of its word (R87). -/
theorem step_issue {i : Instr} {s : State} {rest : List HostOp} (hb : s.io.busy = false)
    (hq : s.host.queue = issue i :: rest) : step s = .next (startCommand (encode i) (popOp rest s)) := by
  rw [step_idle hb hq]
  exact memWrite_cmd _ (by simpa using hb)

theorem statusWord_busy (io : Interface) : (statusWord io)[0] = io.busy := by
  have hfield := congrArg (fun x : BitVec 1 => x[0]) (statusWord_fields io).1
  simpa using hfield

/-- Bit 0 of what a STATUS read returns is BUSY (R54, R240). -/
theorem pollStatus_seen (s : State) :
    ∃ v : Word, (pollStatus s).host.seen = v :: s.host.seen ∧ v[0] = s.io.busy := by
  have hseen : (pollStatus s).host.seen = (servedRead .status s).host.seen := by
    simp only [pollStatus]
    split <;> rfl
  refine ⟨_, hseen.trans (servedRead_seen .status s), ?_⟩
  cases hb : s.io.busy with
  | true => simp [readRegBusy]
  | false => simpa [readReg, hb] using statusWord_busy s.io

/-- Settles O60: LDIN's writes fill DIN word by word and the CMD write starts the command; a POLL puts itself back
exactly when it read BUSY = 1. -/
theorem xcmdRuns : Obligations.XcmdRuns := by
  refine ⟨fun i bytes s rest hlength hb hq => ?xcmd, fun s rest hm hq => ?poll⟩
  case xcmd =>
    have hqueue : s.host.queue = ldinFrom 0 bytes ++ issue i :: .poll :: rest := by simpa [xcmd, ldin] using hq
    obtain ⟨t, ht, hloaded⟩ := run_ldinFrom rfl (by omega) hb hqueue
    have hissue := step_issue hloaded.busy hloaded.queue
    refine ⟨_, run_add ht (run_succ_iff.mpr ⟨_, hissue, rfl⟩), fun k => ?_, by simp, by simp,
      hloaded.units.trans ⟨by simp, by simp, by simp⟩, by simp, by simpa using hloaded.seen⟩
    rw [startCommand_io_din, popOp_io, hloaded.din k]
    simp
  case poll =>
    obtain ⟨v, hseen, hbit⟩ := pollStatus_seen (popOp rest s)
    rw [popOp_io] at hbit
    refine ⟨pollStatus (popOp rest s), v, (step_eq_hostStep hm).trans (hostStep_cons hq), by simpa using hseen, hbit,
      by simp, ⟨by simp, by simp, by simp⟩, ?_⟩
    rw [pollStatus_queue, popOp_io, popOp_host_queue, hbit]

end Sys2Proof.Machine
end

section
/-! The adder, the rotator and the bytes of a block (spec/40_chacha20_block.md R101, R102, R104, R107-R111). -/

namespace Sys2Proof.Machine

theorem add32_toNat (x y : Word) : (add32 x y).toNat = (x.toNat + y.toNat) % 2 ^ 32 := BitVec.toNat_add x y

/-- The right-shifted half of the rotation is below 2^32 already, so reducing the OR reduces the left-shifted half. -/
theorem rotl_toNat (x : Word) (n : Nat) :
    (rotl x n).toNat = ((x.toNat <<< n) ||| (x.toNat >>> (32 - n))) % 2 ^ 32 := by
  have hright : x.toNat >>> (32 - n) % 2 ^ 32 = x.toNat >>> (32 - n) :=
    Nat.mod_eq_of_lt (Nat.lt_of_le_of_lt (Nat.shiftRight_le _ _) x.isLt)
  rw [rotl, BitVec.toNat_or, BitVec.toNat_shiftLeft, BitVec.toNat_ushiftRight, Nat.or_mod_two_pow, hright]

theorem rotl_zero (n : Nat) : rotl 0 n = 0 := by simp [rotl]

theorem rotl_allOnes : ∀ n ∈ [16, 12, 8, 7], rotl 0xFFFFFFFF n = 0xFFFFFFFF := by decide

/-- Settles O4: both values hold for all words and all rotations; the examples are evaluated. -/
theorem adderAndRotator : Obligations.AdderAndRotator :=
  ⟨add32_toNat, by decide, by decide, by decide,
    fun x n hn => ⟨rotl_toNat x n, rotl_zero n, rotl_allOnes n hn⟩, by decide, by decide, by decide, by decide⟩

theorem feedForward_getElem (x snap : Vector Word 16) (i : Fin 16) :
    (feedForward x snap)[i] = add32 x[i] snap[i] := by
  simp [feedForward]

theorem serialize_getElem (x : Vector Word 16) (i : Fin 16) (k : Fin 4) :
    (serialize x)[4 * i.val + k.val]'(by omega) = byteOf x[i] k.val := by
  have hlane : (4 * i.val + k.val) / 4 = i.val := by omega
  have hbyte : (4 * i.val + k.val) % 4 = k.val := by omega
  rw [serialize, bytesOfWords_getElem, hlane, hbyte]
  simp

/-- Settles O7: serialization picks byte k of lane i, and the feed-forward made that lane. -/
theorem blockBytes : Obligations.BlockBytes := by
  intro key c nonce i k s
  exact (serialize_getElem _ i k).trans (congrArg (byteOf · k.val) (feedForward_getElem (doubleRounds 10 s) s i))

end Sys2Proof.Machine
end

section
/-! Quarter rounds on lane groups (spec/40_chacha20_block.md R105, R115): which lanes one writes, and that quarter
rounds on groups without a common lane may be done in any order or in parallel. -/

namespace Sys2Proof.Machine

/-! One group (R105). -/

/-- The lanes of a group. -/
def lanes (g : LaneGroup) : List (Fin 16) := [g.1, g.2.1, g.2.2.1, g.2.2.2]

theorem writeGroup_getElem (x : Vector Word 16) (g : LaneGroup) (q : Word × Word × Word × Word) {m : Nat}
    (hm : m < 16) :
    (writeGroup x g q)[m] =
      if g.2.2.2.val = m then q.2.2.2 else if g.2.2.1.val = m then q.2.2.1 else if g.2.1.val = m then q.2.1
      else if g.1.val = m then q.1 else x[m] := by
  simp only [writeGroup, Vector.getElem_set]

section
variable {x y : Vector Word 16} {g : LaneGroup} {m : Fin 16}

theorem writeGroup_getElem_of_notMem (q : Word × Word × Word × Word) (h : m ∉ lanes g) :
    (writeGroup x g q)[m] = x[m] := by
  simp only [lanes, List.mem_cons, List.not_mem_nil, or_false, not_or, eq_comm (a := m)] at h
  obtain ⟨h0, h1, h2, h3⟩ := h
  simp [writeGroup_getElem, Fin.val_inj, h0, h1, h2, h3]

theorem writeGroup_getElem_of_mem (q : Word × Word × Word × Word) (h : m ∈ lanes g) :
    (writeGroup x g q)[m] = (writeGroup y g q)[m] := by
  simp only [lanes, List.mem_cons, List.not_mem_nil, or_false] at h
  rcases h with rfl | rfl | rfl | rfl <;> simp [writeGroup_getElem]

theorem qrOn_getElem_of_notMem (h : m ∉ lanes g) : (qrOn x g)[m] = x[m] := writeGroup_getElem_of_notMem _ h

theorem groupQr_congr (h : ∀ m ∈ lanes g, x[m] = y[m]) : groupQr x g = groupQr y g := by
  simp only [lanes, List.forall_mem_cons] at h
  obtain ⟨h0, h1, h2, h3, -⟩ := h
  rw [groupQr, groupQr, h0, h1, h2, h3]

end

theorem qrOn_getElem_lanes (x : Vector Word 16) {i j k l : Fin 16} (h : [i, j, k, l].Nodup) :
    ((qrOn x (i, j, k, l))[i], (qrOn x (i, j, k, l))[j], (qrOn x (i, j, k, l))[k], (qrOn x (i, j, k, l))[l]) =
      quarterRound x[i] x[j] x[k] x[l] := by
  simp only [List.nodup_cons, List.mem_cons, List.not_mem_nil, or_false, not_or] at h
  obtain ⟨⟨hij, hik, hil⟩, ⟨hjk, hjl⟩, hkl, -⟩ := h
  simp [qrOn, groupQr, writeGroup_getElem, Fin.val_inj, Ne.symm hij, Ne.symm hik, Ne.symm hil, Ne.symm hjk,
    Ne.symm hjl, Ne.symm hkl]

/-- Settles O5: the group's lanes hold the quarter round, the others are not written, and the rounds list their groups;
the example evaluates `quarterRound`. -/
theorem quarterRoundOnLanes : Obligations.QuarterRoundOnLanes := by
  refine ⟨fun x i j k l h => ?general, fun x => rfl, fun x => rfl, fun x h2 h7 h8 h13 => ?numeric⟩
  case general =>
    have hq := qrOn_getElem_lanes x h
    simp only [Prod.ext_iff] at hq
    obtain ⟨hi, hj, hk, hl⟩ := hq
    exact ⟨hi, hj, hk, hl, fun m hm => qrOn_getElem_of_notMem hm⟩
  case numeric =>
    have hq := calc
      _ = quarterRound x[2] x[7] x[8] x[13] := qrOn_getElem_lanes x (i := 2) (j := 7) (k := 8) (l := 13) (by decide)
      _ = quarterRound 0x516461B1 0x2A5F714C 0x53372767 0x3D631689 := by rw [h2, h7, h8, h13]
      _ = (0xBDB886DC, 0xCFACAFD2, 0xE46BEA80, 0xCCC07C79) := by decide
    simp only [Prod.ext_iff] at hq
    exact hq

/-! Groups without a common lane (R115). -/

/-- Two groups have no lane in common. -/
def LanesApart (g h : LaneGroup) : Prop := ∀ m ∈ lanes g, m ∉ lanes h

theorem LanesApart.symm {g h : LaneGroup} (apart : LanesApart g h) : LanesApart h g :=
  fun m hm hg => apart m hg hm

/-- A quarter round reads and writes its own group only, so one on a group apart from it makes no difference to it. -/
theorem groupQr_qrOn {g h : LaneGroup} (apart : LanesApart g h) (x : Vector Word 16) :
    groupQr (qrOn x h) g = groupQr x g :=
  groupQr_congr fun m hm => qrOn_getElem_of_notMem (apart m hm)

theorem qrOn_qrOn_getElem {g h : LaneGroup} (apart : LanesApart g h) (x : Vector Word 16) {m : Fin 16}
    (hm : m ∈ lanes g) : (qrOn (qrOn x g) h)[m] = (qrOn (qrOn x h) g)[m] :=
  calc (qrOn (qrOn x g) h)[m]
      = (writeGroup x g (groupQr x g))[m] := qrOn_getElem_of_notMem (apart m hm)
    _ = (writeGroup (qrOn x h) g (groupQr x g))[m] := writeGroup_getElem_of_mem _ hm
    _ = (qrOn (qrOn x h) g)[m] := by rw [← groupQr_qrOn apart x, ← qrOn]

theorem qrOn_comm {g h : LaneGroup} (apart : LanesApart g h) (x : Vector Word 16) :
    qrOn (qrOn x g) h = qrOn (qrOn x h) g := by
  suffices hlane : ∀ m : Fin 16, (qrOn (qrOn x g) h)[m] = (qrOn (qrOn x h) g)[m] from
    Vector.ext fun m hm => hlane ⟨m, hm⟩
  intro m
  by_cases hg : m ∈ lanes g
  · exact qrOn_qrOn_getElem apart x hg
  by_cases hh : m ∈ lanes h
  · exact (qrOn_qrOn_getElem apart.symm x hh).symm
  · simp only [qrOn_getElem_of_notMem hg, qrOn_getElem_of_notMem hh]

/-- Writing back quarter rounds of the lanes as they were is doing them one after the other. -/
theorem parallelQr_eq_foldl {gs : List LaneGroup} (apart : gs.Pairwise LanesApart) (x : Vector Word 16) :
    parallelQr gs x = gs.foldl qrOn x := by
  suffices hgen : ∀ y, (∀ g ∈ gs, groupQr x g = groupQr y g) →
      gs.foldl (fun y g => writeGroup y g (groupQr x g)) y = gs.foldl qrOn y from hgen x fun _ _ => rfl
  induction gs with
  | nil => exact fun _ _ => rfl
  | cons g gs ih =>
    intro y hy
    rw [List.forall_mem_cons] at hy
    rw [List.pairwise_cons] at apart
    obtain ⟨hg, hgs⟩ := hy
    obtain ⟨hapart, htail⟩ := apart
    rw [List.foldl_cons, List.foldl_cons, hg, ← qrOn]
    exact ih htail _ fun g' hg' => (hgs g' hg').trans (groupQr_qrOn (hapart g' hg').symm y).symm

/-- Quarter rounds on groups that are pairwise apart may be done in any order. -/
theorem foldl_qrOn_perm {gs hs : List LaneGroup} (apart : gs.Pairwise LanesApart) (hperm : gs.Perm hs)
    (x : Vector Word 16) : gs.foldl qrOn x = hs.foldl qrOn x := by
  have hsymm : Std.Symm LanesApart := ⟨fun _ _ => LanesApart.symm⟩
  refine hperm.foldl_eq' (fun g hg h hh y => ?_) x
  by_cases heq : g = h
  · rw [heq]
  · exact qrOn_comm (apart.forall hg hh heq) y

theorem halfGroups_apart (h : Half) : (halfGroups h).Pairwise LanesApart := by
  unfold LanesApart
  cases h <;> decide

theorem exists_halfGroup (h : Half) (m : Fin 16) : ∃ g ∈ halfGroups h, m ∈ lanes g := by
  revert m
  cases h <;> decide

/-- Settles O6: the groups of a half round are pairwise apart, which is all that order and parallel writing need. -/
theorem halfRoundOrderFree : Obligations.HalfRoundOrderFree := by
  refine fun h => ⟨fun m => ?cover, fun x gs hperm => ?order⟩
  case cover =>
    have hsymm : Std.Symm LanesApart := ⟨fun _ _ => LanesApart.symm⟩
    obtain ⟨g, hg, hm⟩ := exists_halfGroup h m
    refine ⟨g, ⟨hg, hm⟩, fun g' ⟨hg', hm'⟩ => ?_⟩
    by_contra hne
    exact (halfGroups_apart h).forall hg' hg hne m hm' hm
  case order =>
    have hapart : gs.Pairwise LanesApart := (hperm.pairwise_iff LanesApart.symm).mpr (halfGroups_apart h)
    have horder := foldl_qrOn_perm hapart hperm x
    exact ⟨horder, (parallelQr_eq_foldl hapart x).trans horder⟩

end Sys2Proof.Machine
end

section
/-! The round sequencer computes the block function (spec/40_chacha20_block.md R111-R117): the passes of a half round,
an iteration, the ten iterations. -/

namespace Sys2Proof.Machine

theorem seqRun_add (u : QrUnits) (k : Ksg) (m n : Nat) (d : Datapath) :
    seqRun u k (m + n) d = seqRun u k n (seqRun u k m d) := by
  induction m generalizing d with
  | zero => rw [Nat.zero_add, seqRun]
  | succ m ih => rw [Nat.succ_add, seqRun, seqRun, ih]

/-! A half round (R115, R116). -/

/-- The groups the units take together are quarter-rounded as if one after the other. -/
theorem parallelQr_issuedGroups (u : QrUnits) (h : Half) (qi : Fin 4) (x : Vector Word 16) :
    parallelQr (issuedGroups u h qi) x = (issuedGroups u h qi).foldl qrOn x :=
  parallelQr_eq_foldl ((halfGroups_apart h).sublist ((List.take_sublist _ _).trans (List.drop_sublist _ _))) x

theorem halfGroups_length (h : Half) : (halfGroups h).length = 4 := by cases h <;> rfl

theorem seqNextHalf_tenth {d : Datapath} (hhalf : d.half = .diagonal) (hrc : d.rc.val + 1 = 10) :
    seqNextHalf d = { d with half := .column, qi := 0, rc := 0, seq := .feed } := by
  simp only [seqNextHalf, hhalf, hrc, ↓reduceIte]

theorem seqNextHalf_diagonal {d : Datapath} (hhalf : d.half = .diagonal) (hrc : d.rc.val + 1 ≠ 10) :
    seqNextHalf d = { d with half := .column, qi := 0, rc := d.rc + 1 } := by
  simp only [seqNextHalf, hhalf, hrc, ↓reduceIte]

theorem seqNextHalf_qi (d : Datapath) (qi : Fin 4) : seqNextHalf { d with qi := qi } = seqNextHalf d := by
  unfold seqNextHalf
  cases d.half <;> rfl

section
variable {u : QrUnits} {d : Datapath}

theorem seqTick_lastPass (k : Ksg) (hround : d.seq = .round) (hlast : d.qi.val + u.count = 4) :
    seqTick u k d = seqNextHalf { d with x := ((halfGroups d.half).drop d.qi.val).foldl qrOn d.x } := by
  have hall : issuedGroups u d.half d.qi = (halfGroups d.half).drop d.qi.val :=
    List.take_of_length_le (by rw [List.length_drop, halfGroups_length]; omega)
  simp only [seqTick, hround, seqRound, if_pos hlast.ge, parallelQr_issuedGroups]
  rw [hall]

theorem seqTick_pass (k : Ksg) (hround : d.seq = .round) (hmore : d.qi.val + u.count < 4) :
    seqTick u k d = { d with
      x := (issuedGroups u d.half d.qi).foldl qrOn d.x, qi := Fin.ofNat 4 (d.qi.val + u.count) } := by
  simp only [seqTick, hround, seqRound, if_neg (Nat.not_le.mpr hmore), parallelQr_issuedGroups]

/-- The passes from index QI on do the quarter rounds that remain of the half round. -/
theorem seqRun_passes (k : Ksg) {p : Nat} (hround : d.seq = .round) (hp : d.qi.val + (p + 1) * u.count = 4) :
    seqRun u k (p + 1) d = seqNextHalf { d with x := ((halfGroups d.half).drop d.qi.val).foldl qrOn d.x } := by
  induction p generalizing d with
  | zero => exact seqTick_lastPass k hround (by omega)
  | succ p ih =>
    rw [Nat.succ_mul] at hp
    have hpasses : 0 < (p + 1) * u.count := Nat.mul_pos p.succ_pos (by cases u <;> decide)
    have hmore : d.qi.val + u.count < 4 := by omega
    have hqi : (Fin.ofNat 4 (d.qi.val + u.count)).val = d.qi.val + u.count := Nat.mod_eq_of_lt hmore
    have hgroups : issuedGroups u d.half d.qi ++ (halfGroups d.half).drop (d.qi.val + u.count) =
        (halfGroups d.half).drop d.qi.val := by
      rw [issuedGroups, ← List.drop_drop, List.take_append_drop]
    have hrest : (Fin.ofNat 4 (d.qi.val + u.count)).val + (p + 1) * u.count = 4 := by omega
    rw [seqRun, seqTick_pass k hround hmore,
      ih (d := { d with x := _, qi := Fin.ofNat 4 (d.qi.val + u.count) }) hround hrest]
    simp only [hqi, ← List.foldl_append, hgroups]
    exact seqNextHalf_qi { d with x := _ } _

end

/-! The iterations (R106, R108, R113). -/

/-- The datapath at the start of an iteration. -/
def atIteration (x snap : Vector Word 16) (ks : Vector Byte 64) (rc : Fin 10) : Datapath where
  x := x
  snap := snap
  ks := ks
  seq := .round
  rc := rc
  half := .column
  qi := 0

section
variable (u : QrUnits) (k : Ksg)

theorem seqRun_half {d : Datapath} (hround : d.seq = .round) (hqi : d.qi = 0) :
    seqRun u k (4 / u.count) d = seqNextHalf { d with x := (halfGroups d.half).foldl qrOn d.x } := by
  obtain ⟨p, hp, hcover⟩ : ∃ p, 4 / u.count = p + 1 ∧ (p + 1) * u.count = 4 := by
    cases u
    · exact ⟨3, rfl, rfl⟩
    · exact ⟨1, rfl, rfl⟩
    · exact ⟨0, rfl, rfl⟩
  rw [hp, seqRun_passes k hround (by simpa [hqi] using hcover), hqi]
  rfl

theorem seqRun_iteration (x snap : Vector Word 16) (ks : Vector Byte 64) (rc : Fin 10) :
    seqRun u k (2 * (4 / u.count)) (atIteration x snap ks rc) =
      seqNextHalf { atIteration (doubleRound x) snap ks rc with half := .diagonal } := by
  have hcolumn : seqRun u k (4 / u.count) (atIteration x snap ks rc) =
      { atIteration (columnRound x) snap ks rc with half := .diagonal } := seqRun_half u k rfl rfl
  rw [Nat.two_mul, seqRun_add, hcolumn]
  exact seqRun_half u k rfl rfl

theorem seqRun_iterations {n : Nat} {rc : Fin 10} (hrc : rc.val + n = 9) (x snap : Vector Word 16)
    (ks : Vector Byte 64) :
    seqRun u k ((n + 1) * (2 * (4 / u.count))) (atIteration x snap ks rc) =
      { atIteration (doubleRounds (n + 1) x) snap ks 0 with seq := .feed } := by
  induction n generalizing rc x with
  | zero =>
    have hlast : rc.val + 1 = 10 := by omega
    rw [Nat.one_mul, seqRun_iteration, seqNextHalf_tenth rfl hlast]
    rfl
  | succ n ih =>
    have hmore : rc.val + 1 ≠ 10 := by omega
    have hnext : (rc + 1).val + n = 9 := by
      rw [Fin.val_add_one_of_lt' (by omega)]
      omega
    rw [Nat.succ_mul, Nat.add_comm, seqRun_add, seqRun_iteration, seqNextHalf_diagonal rfl hmore]
    exact ih hnext (doubleRound x)

end

/-- Settles O8: LOAD starts the first iteration, the twenty half rounds are the ten double rounds, and FEED and OUT
finish the block. -/
theorem sequencerComputesBlock : Obligations.SequencerComputesBlock := by
  intro u k d
  have hrounds : 20 * (4 / u.count) = (9 + 1) * (2 * (4 / u.count)) := by omega
  have hload : seqRun u k 1 (seqStart d) =
      atIteration (initState k.key k.ctr k.nonce) (initState k.key k.ctr k.nonce) d.ks 0 := rfl
  rw [seqMoves, seqRun_add, seqRun_add, hload, hrounds, seqRun_iterations u k rfl]
  rfl

end Sys2Proof.Machine
end

section
/-! A command's control depends on public values only (spec/40_chacha20_block.md R118, spec/42_poly1305.md R190,
spec/70_reset_and_hazards.md R243): bodies run on two states with the same public registers end alike. -/

namespace Sys2Proof.Machine

/-- Two states that agree on what a command reports besides ERR and on what its control is made of (R243). CTR, MATCH
and DOUT are left out: a command may take them from secret operands. -/
structure ControlEq (s t : State) : Prop where
  outlen : s.io.outlen = t.io.outlen
  keyed : s.ksg.keyed = t.ksg.keyed
  used : s.ksg.used = t.ksg.used
  exh : s.ksg.exh = t.ksg.exh
  pst : s.p.pst = t.p.pst
  pcnt : s.p.pcnt = t.p.pcnt
  host : s.host = t.host

/-- Two results of a body with the same control: the same code raised, or states that agree on the control. -/
inductive SameControl : Except ErrCode State → Except ErrCode State → Prop where
  | ok {u v : State} (agree : ControlEq u v) : SameControl (.ok u) (.ok v)
  | error (e : ErrCode) : SameControl (.error e) (.error e)

/-! The operations (R132, R181). -/

theorem advance_exh_congr {k l : Ksg} (hctr : k.ctr = l.ctr) (hexh : k.exh = l.exh) :
    (advance k).exh = (advance l).exh := by
  unfold advance
  rw [hctr]
  split
  · rfl
  · exact hexh

theorem absorbByte_pcnt (p : P1305) (b : Byte) :
    (absorbByte p b).pcnt = if p.pcnt + 1 = 16 then 0 else p.pcnt + 1 := by
  simp only [absorbByte]
  split <;> rfl

/-- PCNT counts the bytes absorbed, whatever they are. -/
theorem absorb_pcnt_congr {p q : P1305} {as bs : List Byte} (hpcnt : p.pcnt = q.pcnt)
    (hlength : as.length = bs.length) :
    (absorb p as).pcnt = (absorb q bs).pcnt := by
  induction as generalizing p q bs with
  | nil =>
    obtain rfl := List.eq_nil_of_length_eq_zero hlength.symm
    exact hpcnt
  | cons a as ih =>
    obtain ⟨b, bs, rfl⟩ := List.exists_cons_of_length_eq_add_one hlength.symm
    have hstep : (absorbByte p a).pcnt = (absorbByte q b).pcnt := by rw [absorbByte_pcnt, absorbByte_pcnt, hpcnt]
    rw [absorb_cons, absorb_cons]
    exact ih hstep (Nat.succ.inj hlength)

/-! The frame (R204). -/

theorem PublicEq.beginCommand {s t : State} (h : PublicEq s t) : PublicEq (beginCommand s) (beginCommand t) := by
  obtain ⟨hlcmd, hbusy, herr, -, -, -, hctr, hexh, hkeyed, hused, hpst, hpcnt, hhost⟩ := h
  constructor <;> simp [*]

theorem PublicEq.controlEq {s t : State} (h : PublicEq s t) : ControlEq s t :=
  ⟨h.outlen, h.keyed, h.used, h.exh, h.pst, h.pcnt, h.host⟩

theorem ControlEq.finishCommand {s t : State} (h : ControlEq s t) (e : ErrCode) :
    ControlEq (finishCommand e s) (finishCommand e t) := by
  obtain ⟨houtlen, hkeyed, hused, hexh, hpst, hpcnt, hhost⟩ := h
  constructor <;> simpa

/-! The bodies. -/

section
variable {s t : State}

theorem PublicEq.bodyCcSetctr (h : PublicEq s t) : SameControl (bodyCcSetctr s) (bodyCcSetctr t) := by
  simp only [Machine.bodyCcSetctr, h.keyed, h.used]
  split
  · exact .error _
  split
  · exact .error _
  · exact .ok { h.controlEq with keyed := rfl, used := rfl, exh := rfl }

theorem PublicEq.genBlock (h : PublicEq s t) : ControlEq (genBlock s) (genBlock t) :=
  { h.controlEq with keyed := by simpa using h.keyed, used := rfl, exh := advance_exh_congr h.ctr h.exh }

theorem PublicEq.bodyCcBlock (h : PublicEq s t) : SameControl (bodyCcBlock s) (bodyCcBlock t) := by
  simp only [Machine.bodyCcBlock, h.keyed, h.exh]
  split
  · exact .error _
  split
  · exact .error _
  · exact .ok { h.genBlock with outlen := rfl }

theorem PublicEq.bodyCcXor (h : PublicEq s t) (len : BitVec 7) : SameControl (bodyCcXor len s) (bodyCcXor len t) := by
  simp only [Machine.bodyCcXor, h.keyed, h.exh]
  split
  · exact .error _
  split
  · exact .error _
  split
  · exact .ok h.controlEq
  split
  · exact .error _
  · exact .ok { h.genBlock with outlen := rfl }

theorem PublicEq.bodyPUpdate (h : PublicEq s t) (len : BitVec 7) :
    SameControl (bodyPUpdate len s) (bodyPUpdate len t) := by
  simp only [Machine.bodyPUpdate, h.pst]
  split
  · exact .error _
  split
  · exact .error _
  · have hlength : (messageOperand s.io.din len.toNat).length = (messageOperand t.io.din len.toNat).length := by
      simp only [messageOperand, slice_length]
    exact .ok { h.controlEq with pst := by simpa using h.pst, pcnt := absorb_pcnt_congr h.pcnt hlength }

theorem PublicEq.bodyPFinal (h : PublicEq s t) : SameControl (bodyPFinal s) (bodyPFinal t) := by
  simp only [Machine.bodyPFinal, h.pst]
  split
  · exact .error _
  · exact .ok { h.controlEq with outlen := rfl, pst := rfl, pcnt := rfl }

theorem PublicEq.bodyPVerify (h : PublicEq s t) : SameControl (bodyPVerify s) (bodyPVerify t) := by
  simp only [Machine.bodyPVerify, h.pst]
  split
  · exact .error _
  · exact .ok { h.controlEq with outlen := h.outlen, pst := rfl, pcnt := rfl }

theorem PublicEq.bodyOf (h : PublicEq s t) (i : Instr) : SameControl (bodyOf i s) (bodyOf i t) := by
  cases i with
  | ccInit => exact .ok { h.controlEq with keyed := rfl, used := rfl, exh := rfl }
  | ccSetctr => exact h.bodyCcSetctr
  | ccBlock => exact h.bodyCcBlock
  | ccXor len => exact h.bodyCcXor len
  | ccClear => exact .ok { h.controlEq with keyed := rfl, used := rfl, exh := rfl }
  | pInit => exact .ok { h.controlEq with pst := rfl, pcnt := rfl }
  | pUpdate len => exact h.bodyPUpdate len
  | pFinal => exact h.bodyPFinal
  | pVerify => exact h.bodyPVerify
  | pClear => exact .ok { h.controlEq with pst := rfl, pcnt := rfl }

/-! The CORE's step (R204). -/

/-- Both commands complete, with one code, in states that agree on the control. -/
def CompleteAlike (r q : Result) : Prop :=
  ∃ e u v, r = .next (finishCommand e u) ∧ q = .next (finishCommand e v) ∧ ControlEq u v

theorem PublicEq.turnedAway (h : PublicEq s t) (e : ErrCode) :
    CompleteAlike (.next (finishCommand e (Machine.beginCommand s)))
      (.next (finishCommand e (Machine.beginCommand t))) :=
  ⟨e, _, _, rfl, rfl, h.beginCommand.controlEq⟩

theorem PublicEq.exec (h : PublicEq s t) (i : Instr) : CompleteAlike (exec i s) (exec i t) := by
  have hbody := h.beginCommand.bodyOf i
  rw [exec_eq_runCommand, exec_eq_runCommand]
  generalize hs : Machine.bodyOf i (Machine.beginCommand s) = a, ht : Machine.bodyOf i (Machine.beginCommand t) = b
    at hbody
  cases hbody with
  | ok huv => exact ⟨.ok, _, _, runCommand_ok hs, runCommand_ok ht, huv⟩
  | error e =>
    rw [runCommand_error hs, runCommand_error ht]
    exact h.turnedAway e

theorem PublicEq.coreStep (h : PublicEq s t) : CompleteAlike (coreStep s) (coreStep t) := by
  cases hs : decode s.io.lcmd with
  | ok i =>
    rw [coreStep_of_decode_ok hs, coreStep_of_decode_ok (h.lcmd ▸ hs)]
    exact h.exec i
  | error e =>
    rw [coreStep_of_decode_error hs, coreStep_of_decode_error (h.lcmd ▸ hs)]
    exact h.turnedAway .illegalCommand

end

/-- Settles O58: the same word is decoded, each body branches on public flags only, and the frame sets ERR and
BUSY. -/
theorem commandControlPublic : Obligations.CommandControlPublic := by
  intro s t h hm
  obtain ⟨e, u, v, hs, ht, huv⟩ := h.coreStep
  obtain ⟨houtlen, hkeyed, hused, hexh, hpst, hpcnt, hhost⟩ := huv.finishCommand e
  exact ⟨_, _, (step_eq_coreStep hm).trans hs, (step_eq_coreStep (h.coreMoves ▸ hm)).trans ht, by simp, houtlen,
    by simp, hkeyed, hused, hexh, hpst, hpcnt, hhost⟩

end Sys2Proof.Machine
end

section
/-! The frame around a body (spec/60_exceptions.md R203, R204): what a completed command and a refused one leave. -/

namespace Sys2Proof.Machine

/-- The other direction of `bodyOf_cases`: the state of each constructor is what the body answers. -/
theorem CommandDone.bodyOf_eq {s t : State} {i : Instr} (h : CommandDone s i t) : bodyOf i s = .ok t := by
  cases h with
  | ccInit | ccClear | pInit | pClear => rfl
  | ccSetctr keyed unused => simp [bodyOf, bodyCcSetctr, keyed, unused]
  | ccBlock keyed live => simp [bodyOf, bodyCcBlock, keyed, live]
  | ccXorNone keyed => simp [bodyOf, bodyCcXor, legalLen, keyed]
  | ccXorChunk len legal keyed nonzero live =>
    simp only [bodyOf, bodyCcXor, legal, keyed, nonzero, live, reduceCtorEq, reduceIte]
  | pUpdate len legal absorbing => simp [bodyOf, bodyPUpdate, legal, absorbing]
  | pFinal absorbing => simp [bodyOf, bodyPFinal, absorbing]
  | pVerify absorbing => simp [bodyOf, bodyPVerify, absorbing]

/-- No body writes LCMD or the HOST. -/
theorem CommandDone.lcmd_host {s t : State} {i : Instr} (h : CommandDone s i t) :
    t.io.lcmd = s.io.lcmd ∧ t.host = s.host := by
  cases h <;> simp

section
variable {s u : State} {i : Instr}

theorem CommandDone.exec_eq (h : CommandDone (beginCommand s) i u) : exec i s = .next (finishCommand .ok u) := by
  rw [exec_eq_runCommand]
  exact runCommand_ok h.bodyOf_eq

theorem CommandDone.frameDone (h : CommandDone (beginCommand s) i u) : FrameDone .ok s (finishCommand .ok u) := by
  obtain ⟨hlcmd, hhost⟩ := h.lcmd_host
  exact ⟨by simpa using hlcmd, by simp, by simp, by simp, by simpa using hhost⟩

theorem exec_turnedAway {e : ErrCode} (h : bodyOf i (beginCommand s) = .error e) :
    ∃ t, exec i s = .next t ∧ TurnedAway e s t := by
  rw [exec_eq_runCommand]
  exact ⟨_, runCommand_error h, turnedAway_raise e s⟩

/-- Everything `exec` can do: complete the command, or turn it away with an error. -/
theorem exec_cases {t : State} (h : exec i s = .next t) :
    (∃ u, CommandDone (beginCommand s) i u ∧ t = finishCommand .ok u) ∨ ∃ e, TurnedAway e s t := by
  rcases bodyOf_cases i (beginCommand s) with ⟨u, -, hdone⟩ | ⟨e, herr, -, -⟩
  · exact .inl ⟨u, hdone, by simpa [hdone.exec_eq] using h.symm⟩
  · obtain ⟨t', ht', haway⟩ := exec_turnedAway herr
    obtain rfl : t' = t := by simpa [ht'] using h
    exact .inr ⟨e, haway⟩

end

end Sys2Proof.Machine
end

section
/-! The 33-bit block counter (spec/41_keystream.md R131, R132). -/

namespace Sys2Proof.Machine

section
variable {k : Ksg}

theorem advance_of_last (h : k.ctr = 0xFFFFFFFF) : advance k = { k with ctr := 0, exh := true } := if_pos h

theorem advance_of_not_last (h : k.ctr ≠ 0xFFFFFFFF) : advance k = { k with ctr := k.ctr + 1 } := if_neg h

/-- CTR alone counts modulo 2^32. -/
theorem advance_ctr (k : Ksg) : (advance k).ctr = k.ctr + 1 := by
  by_cases hlast : k.ctr = 0xFFFFFFFF
  · rw [advance_of_last hlast, hlast]; rfl
  · rw [advance_of_not_last hlast]

theorem c33_of_live (live : k.exh = false) : c33 k = k.ctr.toNat := by simp [c33, live]

theorem c33_lt_of_live (live : k.exh = false) : c33 k < 2 ^ 32 := by
  rw [c33_of_live live]
  exact k.ctr.isLt

theorem live_of_c33_lt (h : c33 k < 2 ^ 32) : k.exh = false := by
  cases hexh : k.exh with
  | false => rfl
  | true =>
    rw [c33, hexh, Bool.toNat_true] at h
    omega

theorem KsgInv.c33_le (h : KsgInv k) : c33 k ≤ 2 ^ 32 := by
  cases hexh : k.exh with
  | false => exact (c33_lt_of_live hexh).le
  | true => simp [c33, hexh, h.exh_ctr hexh]

theorem c33_advance (live : k.exh = false) : c33 (advance k) = c33 k + 1 := by
  by_cases hlast : k.ctr = 0xFFFFFFFF
  · simp [advance_of_last hlast, c33, live, hlast]
  · have hlt : k.ctr.toNat + 1 < 2 ^ 32 := by bv_omega
    simpa [advance_of_not_last hlast, c33, live] using hlt

end

/-- A completed command keeps the counter, advances it on a live unit, or is one of the three that set it. -/
theorem CommandDone.c33_moves {s t : State} {i : Instr} (h : CommandDone s i t) :
    c33 t.ksg = c33 s.ksg ∨ (c33 t.ksg = c33 s.ksg + 1 ∧ c33 s.ksg < 2 ^ 32) ∨
      i = .ccInit ∨ i = .ccSetctr ∨ i = .ccClear := by
  cases h with
  | ccBlock keyed live => exact .inr (.inl ⟨c33_advance live, c33_lt_of_live live⟩)
  | ccXorChunk len legal keyed nonzero live => exact .inr (.inl ⟨c33_advance live, c33_lt_of_live live⟩)
  | ccInit | ccSetctr | ccClear => simp
  | ccXorNone | pInit | pUpdate | pFinal | pVerify | pClear => exact .inl rfl

/-- Settles O15: a completed command moves the counter by at most one, and the invariant it keeps bounds it. -/
theorem counterNeverWraps : Obligations.CounterNeverWraps := by
  intro i s t hs hexec hinit hsetctr hclear
  rcases exec_cases hexec with ⟨u, hdone, rfl⟩ | ⟨e, haway⟩
  · have hinv : KsgInv u.ksg := hdone.ksgInv (by simpa using hs)
    rcases hdone.c33_moves with hsame | hnext | rfl | rfl | rfl
    · exact ⟨.inl (by simpa using hsame), by simpa using hinv.c33_le⟩
    · exact ⟨.inr (by simpa using hnext), by simpa using hinv.c33_le⟩
    · exact absurd rfl hinit
    · exact absurd rfl hsetctr
    · exact absurd rfl hclear
  · rw [haway.units.ksg]
    exact ⟨.inl rfl, hs.c33_le⟩

end Sys2Proof.Machine
end

section
/-! The commands of the keystream generator (spec/41_keystream.md R134-R138, R145). -/

namespace Sys2Proof.Machine

/-! The operands (R82) and the block output selector (R133). -/

theorem keyOperand_getElem (din : Vector Byte 64) (i : Fin 8) : (keyOperand din)[i] = le32 din (4 * i.val) := by
  simp [keyOperand]

theorem nonceOperand_getElem (din : Vector Byte 64) (j : Fin 3) :
    (nonceOperand din)[j] = le32 din (32 + 4 * j.val) := by
  simp [nonceOperand]

theorem selectedBytes_getElem (len : BitVec 7) (din ks dout : Vector Byte 64) (i : Fin 64) :
    (selectedBytes len din ks dout)[i] = if i.val < len.toNat then din[i] ^^^ ks[i] else dout[i] := by
  simp [selectedBytes]

/-- A whole block selected over zero bytes is the block (R136). -/
theorem selectedBytes_zeros (ks dout : Vector Byte 64) : selectedBytes 64 (zeros 8 64) ks dout = ks := by
  ext i hi
  simp [selectedBytes]

/-! A command that generates a block. -/

/-- What CC_BLOCK and CC_XOR n leave besides their output: one block generated and its KS wiped (R130, R132, R133). -/
structure BlockTaken (s t : State) : Prop where
  frame : FrameDone .ok s t
  matched : t.io.matched = false
  ksg : t.ksg = { advance s.ksg with used := true }
  dp : t.dp = Datapath.afterBlock (zeros 8 64)
  p : t.p = s.p

section
variable {s t : State}

theorem BlockTaken.ctr (h : BlockTaken s t) : t.ksg.ctr = s.ksg.ctr + 1 := by rw [h.ksg, ← advance_ctr]

theorem BlockTaken.c33_succ (h : BlockTaken s t) (live : s.ksg.exh = false) : c33 t.ksg = c33 s.ksg + 1 := by
  rw [h.ksg, ← c33_advance live]
  rfl

theorem BlockTaken.keyed (h : BlockTaken s t) : t.ksg.keyed = s.ksg.keyed := by simp [h.ksg]

theorem BlockTaken.used (h : BlockTaken s t) : t.ksg.used = true := by simp [h.ksg]

theorem BlockTaken.key (h : BlockTaken s t) : t.ksg.key = s.ksg.key := by simp [h.ksg]

theorem BlockTaken.nonce (h : BlockTaken s t) : t.ksg.nonce = s.ksg.nonce := by simp [h.ksg]

end

section
variable {s : State} {len : BitVec 7}

/-! The LENs of a CC_XOR that needs a block (R137). -/

theorem legalLen_of_le (hle : len.toNat ≤ 64) : legalLen len = true := by simpa [legalLen] using hle

theorem ne_zero_of_one_le (hpos : 1 ≤ len.toNat) : len ≠ 0#7 := by
  rintro rfl
  simp at hpos

/-! The commands that complete. -/

theorem exec_ccBlock_live (keyed : s.ksg.keyed = true) (live : s.ksg.exh = false) :
    ∃ t, exec .ccBlock s = .next t ∧ BlockTaken s t ∧
      t.io.dout = blockFn s.ksg.key s.ksg.ctr s.ksg.nonce ∧ t.io.outlen = 64 := by
  have hdone := CommandDone.ccBlock (s := beginCommand s) (by simpa using keyed) (by simpa using live)
  exact ⟨_, hdone.exec_eq, ⟨hdone.frameDone, by simp, by simp, by simp [Datapath.afterBlock], by simp⟩,
    by simp, by simp⟩

theorem exec_ccXor_live (hpos : 1 ≤ len.toNat) (hle : len.toNat ≤ 64) (keyed : s.ksg.keyed = true)
    (live : s.ksg.exh = false) :
    ∃ t, exec (.ccXor len) s = .next t ∧ BlockTaken s t ∧
      t.io.dout = selectedBytes len s.io.din (blockFn s.ksg.key s.ksg.ctr s.ksg.nonce) (zeros 8 64) ∧
      t.io.outlen = len := by
  have hdone := CommandDone.ccXorChunk (s := beginCommand s) len (legalLen_of_le hle) (by simpa using keyed)
    (ne_zero_of_one_le hpos) (by simpa using live)
  exact ⟨_, hdone.exec_eq, ⟨hdone.frameDone, by simp, by simp, rfl, by simp⟩, by simp, by simp⟩

/-- A CC_XOR 0 on a keyed unit is the frame alone (R137). -/
theorem exec_ccXor_zero (keyed : s.ksg.keyed = true) :
    ∃ t, exec (.ccXor 0) s = .next t ∧ FrameDone .ok s t ∧ NoOutput t ∧ UnitsKept s t := by
  have hdone := CommandDone.ccXorNone (s := beginCommand s) (by simpa using keyed)
  exact ⟨_, hdone.exec_eq, hdone.frameDone, ⟨by simp, by simp, by simp⟩, ⟨by simp, by simp, by simp⟩⟩

/-! The refusals (R138, R139). -/

theorem exec_ccSetctr_refused (h : s.ksg.keyed = false ∨ s.ksg.used = true) :
    ∃ t, exec .ccSetctr s = .next t ∧ TurnedAway .orderingViolation s t := by
  refine exec_turnedAway ?_
  rcases h with unkeyed | used
  · simp [bodyOf, bodyCcSetctr, unkeyed]
  · simp [bodyOf, bodyCcSetctr, used]

theorem exec_ccBlock_unkeyed (unkeyed : s.ksg.keyed = false) :
    ∃ t, exec .ccBlock s = .next t ∧ TurnedAway .orderingViolation s t :=
  exec_turnedAway (by simp [bodyOf, bodyCcBlock, unkeyed])

theorem exec_ccBlock_exhausted (keyed : s.ksg.keyed = true) (exhausted : s.ksg.exh = true) :
    ∃ t, exec .ccBlock s = .next t ∧ TurnedAway .lengthExceeded s t :=
  exec_turnedAway (by simp [bodyOf, bodyCcBlock, keyed, exhausted])

theorem exec_ccXor_unkeyed (hle : len.toNat ≤ 64) (unkeyed : s.ksg.keyed = false) :
    ∃ t, exec (.ccXor len) s = .next t ∧ TurnedAway .orderingViolation s t :=
  exec_turnedAway (by simp [bodyOf, bodyCcXor, legalLen_of_le hle, unkeyed])

theorem exec_ccXor_exhausted (hpos : 1 ≤ len.toNat) (hle : len.toNat ≤ 64) (keyed : s.ksg.keyed = true)
    (exhausted : s.ksg.exh = true) :
    ∃ t, exec (.ccXor len) s = .next t ∧ TurnedAway .lengthExceeded s t :=
  exec_turnedAway (by simp [bodyOf, bodyCcXor, legalLen_of_le hle, ne_zero_of_one_le hpos, keyed, exhausted])

/-- Over zero bytes of DIN, CC_XOR 64 has the body of CC_BLOCK (R136). -/
theorem bodyCcXor_eq_bodyCcBlock (hdin : s.io.din = zeros 8 64) : bodyCcXor 64 s = bodyCcBlock s := by
  simp only [bodyCcXor, bodyCcBlock, selectOutput, genBlock_io, hdin, selectedBytes_zeros]
  rfl

end

/-- On a unit with one counter value left, one CC_BLOCK succeeds and the next is refused (R131, R138). -/
theorem exec_ccBlock_last {s : State} (keyed : s.ksg.keyed = true) (live : s.ksg.exh = false)
    (last : s.ksg.ctr = 0xFFFFFFFF) :
    ∃ u v, exec .ccBlock s = .next u ∧ u.io.err = .ok ∧
      exec .ccBlock u = .next v ∧ v.io.err = .lengthExceeded := by
  obtain ⟨u, hu, htaken, -, -⟩ := exec_ccBlock_live keyed live
  have hexhausted : u.ksg.exh = true := by rw [htaken.ksg, advance_of_last last]
  obtain ⟨v, hv, haway⟩ := exec_ccBlock_exhausted (htaken.keyed.trans keyed) hexhausted
  exact ⟨u, v, hu, htaken.frame.err, hv, haway.frame.err⟩

/-- Settles O9: CC_INIT asks nothing of the unit, and a unit started at the last counter value has one block. -/
theorem ccInitLoadsState : Obligations.CcInitLoadsState := by
  refine ⟨by decide, fun s => ?_⟩
  have hdone := CommandDone.ccInit (s := beginCommand s)
  refine ⟨_, hdone.exec_eq, hdone.frameDone, ⟨by simp, by simp, by simp⟩, by simp, by simp, fun i => ?key,
    fun j => ?nonce, by simp [initCtrOperand], by simp, by simp, by simp, fun hlast => ?block⟩
  case key => simpa using keyOperand_getElem s.io.din i
  case nonce => simpa using nonceOperand_getElem s.io.din j
  case block => exact exec_ccBlock_last (by simp) (by simp) (by simpa [initCtrOperand] using hlast)

/-- Settles O10: the keyed unit without a block takes the counter, and any other refuses. -/
theorem ccSetctrSetsCounter : Obligations.CcSetctrSetsCounter := by
  refine ⟨by decide, fun s keyed unused => ?_, fun s => exec_ccSetctr_refused⟩
  have hdone := CommandDone.ccSetctr (s := beginCommand s) (by simpa using keyed) (by simpa using unused)
  exact ⟨_, hdone.exec_eq, hdone.frameDone, ⟨by simp, by simp, by simp⟩, by simp, by simp, by simp [setCtrOperand],
    by simp, by simpa using keyed, by simpa using unused, by simp, by simp,
    (exec_ccXor_zero (by simpa using keyed)).imp fun u ⟨hu, _, _, hunits⟩ => ⟨hu, hunits.ksg⟩⟩

/-- Settles O11: the live unit gives the block, the two refusals, and the bodies that agree over zero bytes. -/
theorem ccBlockOutputsBlock : Obligations.CcBlockOutputsBlock := by
  refine ⟨by decide, fun s keyed live => ?_, fun s => exec_ccBlock_unkeyed, fun s => exec_ccBlock_exhausted,
    fun s hdin => ?zeroDin⟩
  · obtain ⟨t, ht, htaken, hdout, houtlen⟩ := exec_ccBlock_live keyed live
    exact ⟨t, ht, htaken.frame, htaken.p, hdout, houtlen, htaken.matched, htaken.c33_succ live, htaken.used,
      htaken.keyed.trans keyed, htaken.key, htaken.nonce, by simp [htaken.dp], by simp [htaken.dp],
      by simp [htaken.dp], by simp [htaken.dp]⟩
  case zeroDin =>
    have hbody : bodyOf (.ccXor 64) (beginCommand s) = bodyOf .ccBlock (beginCommand s) :=
      bodyCcXor_eq_bodyCcBlock (by simpa using hdin)
    rw [exec_eq_runCommand, exec_eq_runCommand, runCommand, runCommand, hbody]

/-- The word of CC_XOR n is its OP with LEN above it (R80, R84). -/
theorem encode_ccXor_toNat (len : BitVec 7) : (encode (.ccXor len)).toNat = 0x04 + 2 ^ 8 * len.toNat := by
  have hlen := len.isLt
  simp only [encode, Instr.opcode, Instr.lenBits, BitVec.ofNat_eq_ofNat, BitVec.toNat_ofNat]
  omega

/-- Settles O12: the live unit XORs a chunk, LEN 0 runs the frame alone, and the two refusals. -/
theorem ccXorOutputsChunk : Obligations.CcXorOutputsChunk := by
  refine ⟨encode_ccXor_toNat, fun len s hpos hle keyed live => ?_, fun s => exec_ccXor_zero,
    fun len s => exec_ccXor_unkeyed, fun len s => exec_ccXor_exhausted⟩
  obtain ⟨t, ht, htaken, hdout, houtlen⟩ := exec_ccXor_live hpos hle keyed live
  refine ⟨t, ht, htaken.frame, htaken.p, fun i => ?_, houtlen, htaken.matched, htaken.c33_succ live, htaken.used,
    htaken.keyed.trans keyed, htaken.key, htaken.nonce, by simp [htaken.dp], by simp [htaken.dp],
    by simp [htaken.dp], by simp [htaken.dp]⟩
  rw [hdout, selectedBytes_getElem]
  simp

/-- Settles O13: CC_CLEAR asks nothing of the unit, leaves what it would leave again, and an unkeyed unit refuses a
block. -/
theorem ccClearWipes : Obligations.CcClearWipes := by
  refine ⟨by decide, fun s => ?_⟩
  have hdone := CommandDone.ccClear (s := beginCommand s)
  exact ⟨_, hdone.exec_eq, hdone.frameDone, ⟨by simp, by simp, by simp⟩, by simp, by simp, by simp, by simp, by simp,
    by simp, by simp, by simp, by simp, ⟨_, CommandDone.ccClear.exec_eq, by simp, by simp, by simp⟩,
    (exec_ccBlock_unkeyed (by simp [Ksg.reset])).imp fun v ⟨hv, haway⟩ => ⟨hv, haway.frame.err⟩⟩

/-- Settles O14: CC_BLOCK and every CC_XOR that uses a block leave the KSG advanced once. -/
theorem counterAdvances : Obligations.CounterAdvances := by
  refine ⟨fun k live => ⟨c33_advance live, fun hlast => ?_, fun hmore => ?_⟩,
    fun s keyed live => ⟨?block, fun len hpos hle => ?chunk⟩⟩
  · simp [advance_of_last hlast]
  · simp [advance_of_not_last hmore, live]
  case block =>
    obtain ⟨t, ht, htaken, -⟩ := exec_ccBlock_live keyed live
    exact ⟨t, ht, htaken.ksg⟩
  case chunk =>
    obtain ⟨t, ht, htaken, -⟩ := exec_ccXor_live hpos hle keyed live
    exact ⟨t, ht, htaken.ksg⟩

/-- Settles O16: the refusals of a keyed exhausted unit, and the only completed commands that clear EXH. -/
theorem exhaustedUnitRefuses : Obligations.ExhaustedUnitRefuses := by
  refine ⟨fun s keyed exhausted => ⟨exec_ccBlock_exhausted keyed exhausted, fun len hpos hle =>
    exec_ccXor_exhausted hpos hle keyed exhausted⟩, fun s t hstep exhausted hlive => ?_⟩
  rcases step_units hstep with hkept | ⟨i, u, hx, hdone, rfl⟩ | ⟨hreset, -, -⟩
  · simp [hkept.ksg, exhausted] at hlive
  · rcases hdone.exh_moves with hsame | ⟨hset, -, -⟩ | ⟨-, rfl | rfl | rfl⟩
    · simp [hsame, exhausted] at hlive
    · simp [hset] at hlive
    · exact .inl hx
    · cases hdone with
      | ccSetctr keyed unused => exact .inr (.inl ⟨hx, by simpa using unused⟩)
    · exact .inr (.inr (.inl hx))
  · exact .inr (.inr (.inr hreset))

end Sys2Proof.Machine
end

section
/-! A stream of CC_XOR commands (spec/41_keystream.md R146, R147). -/

namespace Sys2Proof.Machine

theorem chunkBytes_length_le (c : Chunk) : (chunkBytes c).length ≤ 64 := by
  simp [chunkBytes, slice_length]

/-- The selected bytes are the chunk XORed with the prefix of the block (R133). -/
theorem slice_selectedBytes (len : BitVec 7) (din ks dout : Vector Byte 64) :
    slice (selectedBytes len din ks dout) 0 len.toNat = xorPrefix (slice din 0 len.toNat) ks := by
  refine List.ext_getElem (by simp [slice_length, xorPrefix]) fun i hi _ => ?_
  obtain ⟨hlen, -⟩ : i < len.toNat ∧ i < 64 := by simpa [slice_length] using hi
  simp [slice, xorPrefix, selectedBytes, hlen]

/-- XORing a block prefix twice gives the bytes back (R147). -/
theorem xorPrefix_xorPrefix {bytes : List Byte} (h : bytes.length ≤ 64) (block : Vector Byte 64) :
    xorPrefix (xorPrefix bytes block) block = bytes := by
  refine List.ext_getElem (by simp [xorPrefix, h]) fun i _ _ => ?_
  simp [xorPrefix]

/-- Command number n of a stream that starts at KSG state k, on a byte string: the block n counter values on (R146). -/
def streamXor (k : Ksg) (n : Nat) (bytes : List Byte) : List Byte :=
  xorPrefix bytes (blockFn k.key (k.ctr + BitVec.ofNat 32 n) k.nonce)

theorem streamXor_streamXor (k : Ksg) (n : Nat) {bytes : List Byte} (h : bytes.length ≤ 64) :
    streamXor k n (streamXor k n bytes) = bytes := xorPrefix_xorPrefix h _

/-- The outputs of a stream of chunks that starts at KSG state k (R146). -/
def streamOutputs (k : Ksg) (cs : List Chunk) : List (List Byte) := cs.mapIdx fun n c => streamXor k n (chunkBytes c)

/-- From k on, the chunks after the first come out as a stream that starts at k', the KSG state after one block. -/
theorem streamOutputs_cons {k k' : Ksg} (hnext : ∀ n, streamXor k' n = streamXor k (n + 1)) (c : Chunk)
    (cs : List Chunk) : streamOutputs k (c :: cs) = streamXor k 0 (chunkBytes c) :: streamOutputs k' cs := by
  simp [streamOutputs, hnext]

/-- Chunks that hold a stream's outputs come out as the stream's own chunks (R147). -/
theorem streamOutputs_involution {k : Ksg} {cs cs' : List Chunk} (h : cs'.map chunkBytes = streamOutputs k cs) :
    streamOutputs k cs' = cs.map chunkBytes := calc
  streamOutputs k cs' = (cs'.map chunkBytes).mapIdx (streamXor k) :=
    List.ext_getElem (by simp [streamOutputs]) fun n _ _ => by simp [streamOutputs]
  _ = (streamOutputs k cs).mapIdx (streamXor k) := by rw [h]
  _ = cs.map chunkBytes := by
    refine List.ext_getElem (by simp [streamOutputs]) fun n _ _ => ?_
    simp [streamOutputs, streamXor_streamXor _ _ (chunkBytes_length_le _)]

/-- A stream goes on as one that starts a block later. -/
theorem BlockTaken.streamXor_succ {s t : State} (h : BlockTaken s t) (n : Nat) :
    streamXor t.ksg n = streamXor s.ksg (n + 1) := by
  have hctr : t.ksg.ctr + BitVec.ofNat 32 n = s.ksg.ctr + BitVec.ofNat 32 (n + 1) := by
    rw [h.ctr, BitVec.add_assoc, Nat.add_comm n 1, BitVec.ofNat_add]
    rfl
  funext bytes
  rw [streamXor, h.key, h.nonce, hctr, streamXor]

/-- One command of a stream (R133, R146). -/
theorem exec_ccXor_chunk {s : State} {c : Chunk} (hc : 1 ≤ c.2.toNat ∧ c.2.toNat ≤ 64) (keyed : s.ksg.keyed = true)
    (live : s.ksg.exh = false) :
    ∃ t, exec (.ccXor c.2) (withDin c.1 s) = .next t ∧ BlockTaken (withDin c.1 s) t ∧
      slice t.io.dout 0 t.io.outlen.toNat = streamXor s.ksg 0 (chunkBytes c) := by
  obtain ⟨t, ht, htaken, hdout, houtlen⟩ :=
    exec_ccXor_live (s := withDin c.1 s) hc.1 hc.2 (by simpa using keyed) (by simpa using live)
  refine ⟨t, ht, htaken, ?_⟩
  rw [hdout, houtlen, slice_selectedBytes]
  simp [streamXor, chunkBytes]

theorem xorAll_cons {s t u : State} {c : Chunk} {cs : List Chunk} {outs : List (List Byte)}
    (hexec : exec (.ccXor c.2) (withDin c.1 s) = .next t) (hrest : xorAll t cs = some (u, outs)) :
    xorAll s (c :: cs) = some (u, slice t.io.dout 0 t.io.outlen.toNat :: outs) := by
  simp [xorAll, hexec, hrest]

/-- A stream within the capacity runs, by induction on the chunks: a command leaves a keyed unit at the next counter
value, where the stream of the rest starts. -/
theorem xorAll_eq_some {s : State} {cs : List Chunk} (keyed : s.ksg.keyed = true)
    (hlens : ∀ c ∈ cs, 1 ≤ c.2.toNat ∧ c.2.toNat ≤ 64) (hcap : c33 s.ksg + cs.length ≤ 2 ^ 32) :
    ∃ t, xorAll s cs = some (t, streamOutputs s.ksg cs) ∧ c33 t.ksg = c33 s.ksg + cs.length ∧
      t.ksg.key = s.ksg.key ∧ t.ksg.nonce = s.ksg.nonce ∧ t.p = s.p := by
  induction cs generalizing s with
  | nil => exact ⟨s, rfl, by simp, rfl, rfl, rfl⟩
  | cons c cs ih =>
    rw [List.forall_mem_cons] at hlens
    rw [List.length_cons] at hcap
    have live : s.ksg.exh = false := live_of_c33_lt (by omega)
    obtain ⟨t, ht, htaken, hout⟩ := exec_ccXor_chunk hlens.1 keyed live
    have hnext : c33 t.ksg = c33 s.ksg + 1 := by simpa using htaken.c33_succ (by simpa using live)
    obtain ⟨u, hu, hcount, hkey, hnonce, hp⟩ := ih (by simpa [keyed] using htaken.keyed) hlens.2 (by omega)
    refine ⟨u, ?run, ?count, ?key, ?nonce, ?poly⟩
    case run => rw [xorAll_cons ht hu, hout, streamOutputs_cons (by simpa using htaken.streamXor_succ)]
    case count => rw [hcount, hnext, List.length_cons]; omega
    case key => simp [hkey, htaken.key]
    case nonce => simp [hnonce, htaken.nonce]
    case poly => simp [hp, htaken.p]

/-- Settles O17: the outputs are those of `streamOutputs`. -/
theorem streamOfChunks : Obligations.StreamOfChunks := by
  intro s cs keyed hlens hcap
  obtain ⟨t, hrun, hcount, hkey, hnonce, hp⟩ := xorAll_eq_some keyed hlens hcap
  exact ⟨t, _, hrun, hcount, hkey, hnonce, hp, rfl⟩

/-- Settles O18: the second stream runs for as many chunks as the first, and XORs each with the same block. -/
theorem streamInvolution : Obligations.StreamInvolution := by
  intro s s' cs cs' keyed hksg hlens hcap
  obtain ⟨t, hrun, -⟩ := xorAll_eq_some keyed hlens hcap
  refine ⟨t, _, hrun, fun hchunks hlens' => ?_⟩
  have hlength : cs'.length = cs.length := by
    simpa [streamOutputs] using congrArg List.length hchunks
  rw [← hksg] at keyed hcap hchunks
  obtain ⟨t', hrun', -⟩ := xorAll_eq_some keyed hlens' (by rwa [hlength])
  exact ⟨t', streamOutputs_involution hchunks ▸ hrun'⟩

end Sys2Proof.Machine
end

section
/-! The limb datapath as integers modulo p = 2^130 − 5 (spec/42_poly1305.md R161-R169). -/

namespace Sys2Proof.Machine

/-! What the arrays stand for, digit by digit (R41, R162). -/

/-- The integer that five sums stand for, with the weights of `limbVal`. -/
def sumVal (v : Vector Nat 5) : Nat :=
  v[0] + v[1] * 2 ^ 26 + v[2] * 2 ^ 52 + v[3] * 2 ^ 78 + v[4] * 2 ^ 104

theorem sumVal_mk (a b c d e : Nat) :
    sumVal #v[a, b, c, d, e] = a + b * 2 ^ 26 + c * 2 ^ 52 + d * 2 ^ 78 + e * 2 ^ 104 := rfl

theorem limbVal_mk (a b c d e : Word) :
    limbVal #v[a, b, c, d, e] =
      a.toNat + b.toNat * 2 ^ 26 + c.toNat * 2 ^ 52 + d.toNat * 2 ^ 78 + e.toNat * 2 ^ 104 := rfl

theorem sVal_mk (a b c d : Word) :
    sVal #v[a, b, c, d] = a.toNat + b.toNat * 2 ^ 32 + c.toNat * 2 ^ 64 + d.toNat * 2 ^ 96 := rfl

theorem polyP_eq : polyP = 2 ^ 130 - 5 := rfl

/-! The clamped r (R161). -/

theorem splitR_toNat (r : Nat) (i : Fin 5) :
    ((splitR r)[i]).toNat = (clamp r >>> (26 * i.val)) &&& digitMask := by
  have hlt : (clamp r >>> (26 * i.val)) &&& digitMask < 2 ^ 32 := by
    rw [and_digitMask]
    omega
  simp only [splitR, Fin.getElem_fin, Vector.getElem_ofFn, BitVec.toNat_ofNat, Nat.mod_eq_of_lt hlt]

/-- The limbs are the base-2^26 digits of the clamped r, which is below 2^130. -/
theorem limbVal_splitR (r : Nat) : limbVal (splitR r) = clamp r := by
  have hclamp : clamp r < 2 ^ 130 := Nat.and_lt_two_pow r (by decide)
  have hdigit (i : Fin 5) : ((splitR r)[i.val]).toNat = clamp r / 2 ^ (26 * i.val) % 2 ^ 26 := by
    rw [← and_digitMask, ← Nat.shiftRight_eq_div_pow]
    exact splitR_toNat r i
  have h0 := hdigit 0
  have h1 := hdigit 1
  have h2 := hdigit 2
  have h3 := hdigit 3
  have h4 := hdigit 4
  simp only [Fin.coe_ofNat_eq_mod, Nat.reduceMod, Nat.reduceMul] at h0 h1 h2 h3 h4
  rw [limbVal, h0, h1, h2, h3, h4]
  omega

/-- Settles O24: the limbs are the digits of the clamped r, and the maxima are the digits of the mask. -/
theorem clampedLimbs : Obligations.ClampedLimbs := fun b _ => ⟨splitR_rBounds (leNat b), limbVal_splitR (leNat b)⟩

/-! One block step (R163-R165). -/

/-- The block's digits and the high bit are added in their places (R163). -/
theorem sumVal_addBlock (pa : Vector Word 5) (b : Vector Byte 16) (hb : Bool) :
    sumVal (addBlock pa b hb) = limbVal pa + leNat b.toList + hb.toNat * 2 ^ 128 := by
  have hblock : leNat b.toList < 2 ^ 128 := by simpa using leNat_lt b.toList
  have htop : leNat b.toList / 2 ^ 104 ||| hb.toNat <<< 24 = leNat b.toList / 2 ^ 104 + hb.toNat * 2 ^ 24 := by
    rw [Nat.or_comm, ← Nat.shiftLeft_add_eq_or_of_lt (by omega), Nat.shiftLeft_eq, Nat.add_comm]
  simp only [addBlock, sumVal_mk, limbVal, and_digitMask, Nat.shiftRight_eq_div_pow, htop]
  omega

/-- The products of weight 2^130 and above, each divided by 2^130: what R164 folds back with factor 5. -/
def foldedColumns (h : Vector Nat 5) (pr : Vector Word 5) : Nat :=
  sumVal #v[h[1] * pr[4].toNat + h[2] * pr[3].toNat + h[3] * pr[2].toNat + h[4] * pr[1].toNat,
    h[2] * pr[4].toNat + h[3] * pr[3].toNat + h[4] * pr[2].toNat,
    h[3] * pr[4].toNat + h[4] * pr[3].toNat,
    h[4] * pr[4].toNat, 0]

/-- The columns make the product, but for the multiple of p that folding by 2^130 = p + 5 leaves out (R164). -/
theorem sumVal_mulColumns (h : Vector Nat 5) (pr : Vector Word 5) :
    sumVal (mulColumns h pr) + polyP * foldedColumns h pr = sumVal h * limbVal pr := by
  rw [mulColumns, foldedColumns, sumVal_mk, sumVal_mk, sumVal, limbVal, polyP_eq]
  ring

/-- Carries keep the sum but for a multiple of p: the carry out of the top column has weight 2^130 = p + 5 and comes
back as 5 (R165). -/
theorem limbVal_carryReduce {d : Vector Nat 5} (hd : ColumnBounds d) :
    ∃ c, limbVal (carryReduce d) + polyP * c = sumVal d := by
  obtain ⟨d0, d1, d2, d3, d4⟩ := hd
  refine ⟨(d[4] + (d[3] + (d[2] + (d[1] + d[0] >>> 26) >>> 26) >>> 26) >>> 26) >>> 26, ?_⟩
  simp only [carryReduce, limbVal_mk, sumVal, polyP_eq, and_digitMask, BitVec.toNat_ofNat, Nat.shiftRight_eq_div_pow]
  omega

/-- A block step is a ← (a + n)·r modulo p (R160, R165). -/
theorem limbVal_polyBlock_mod {pa pr : Vector Word 5} (ha : ABounds pa) (hr : RBounds pr) (b : Vector Byte 16)
    (hb : Bool) :
    limbVal (polyBlock pa pr b hb) % polyP =
      (limbVal pa + leNat b.toList + hb.toNat * 2 ^ 128) * limbVal pr % polyP := by
  obtain ⟨c, hc⟩ := limbVal_carryReduce (mulColumns_columnBounds (addBlock_sumBounds ha b hb) hr)
  calc limbVal (polyBlock pa pr b hb) % polyP
      = (limbVal (polyBlock pa pr b hb) + polyP * c) % polyP := (Nat.add_mul_mod_self_left ..).symm
    _ = sumVal (mulColumns (addBlock pa b hb) pr) % polyP := by rw [polyBlock, hc]
    _ = (sumVal (mulColumns (addBlock pa b hb) pr) + polyP * foldedColumns (addBlock pa b hb) pr) % polyP :=
      (Nat.add_mul_mod_self_left ..).symm
    _ = _ := by rw [sumVal_mulColumns, sumVal_addBlock]

/-- Settles O25: folding and carrying leave out multiples of p only, and the bounds say that narrowing loses nothing. -/
theorem polyBlockCongruence : Obligations.PolyBlockCongruence := fun _ _ b hb ha hr =>
  ⟨polyBlock_aBounds ha hr b hb, limbVal_polyBlock_mod ha hr b hb⟩

/-! The final reduction (R166, R167). -/

/-- Five sums that are base-2^26 digits. -/
structure Digits (h : Vector Nat 5) : Prop where
  h0 : h[0] < 2 ^ 26
  h1 : h[1] < 2 ^ 26
  h2 : h[2] < 2 ^ 26
  h3 : h[3] < 2 ^ 26
  h4 : h[4] < 2 ^ 26

theorem digits_mk {a b c d e : Nat} (ha : a < 2 ^ 26) (hb : b < 2 ^ 26) (hc : c < 2 ^ 26) (hd : d < 2 ^ 26)
    (he : e < 2 ^ 26) : Digits #v[a, b, c, d, e] := ⟨ha, hb, hc, hd, he⟩

theorem and_digitMask_lt (n : Nat) : n &&& digitMask < 2 ^ 26 := by
  rw [and_digitMask]
  exact Nat.mod_lt n (by decide)

/-- The last carry goes into limb 1. It is there only when a carry has left limb 1, which then is at most 0x25. -/
theorem digits_finalCarry {pa : Vector Word 5} (ha : ABounds pa) : Digits (finalCarry pa) := by
  obtain ⟨a0, a1, a2, a3, a4⟩ := ha
  refine digits_mk (and_digitMask_lt _) ?_ (and_digitMask_lt _) (and_digitMask_lt _) (and_digitMask_lt _)
  simp only [and_digitMask, Nat.shiftRight_eq_div_pow]
  omega

theorem sumVal_finalCarry (pa : Vector Word 5) : sumVal (finalCarry pa) % polyP = limbVal pa % polyP := by
  simp only [finalCarry, sumVal_mk, limbVal, and_digitMask, Nat.shiftRight_eq_div_pow, polyP_eq]
  omega

/-- The top limb of h with the carries of h + 5, before 2^26 is subtracted (R167). It is 2^26 exactly when h ≥ p. -/
def topWithFive (h : Vector Nat 5) : Nat :=
  h[4] + ((h[3] + ((h[2] + ((h[1] + ((h[0] + 5) >>> 26)) >>> 26)) >>> 26)) >>> 26)

/-- The top limb of h − p. It is 0 without a borrow, and its bit 31 is the borrow (R167). -/
def topMinusP (n : Nat) : Word := BitVec.ofNat 32 n - BitVec.ofNat 32 (2 ^ 26)

theorem topMinusP_of_eq {n : Nat} (h : n = 2 ^ 26) : topMinusP n = 0#32 := by
  subst h
  rfl

theorem maskSelect_of_lt {n : Nat} (hlt : n < 2 ^ 26) (h g : Word) : maskSelect (topMinusP n >>> 31 - 1) h g = h := by
  have hmask : topMinusP n >>> 31 - 1 = 0#32 := by
    unfold topMinusP
    bv_omega
  rw [hmask, maskSelect, BitVec.not_zero, BitVec.and_zero, BitVec.and_allOnes, BitVec.or_zero]

theorem maskSelect_of_eq {n : Nat} (heq : n = 2 ^ 26) (h g : Word) : maskSelect (topMinusP n >>> 31 - 1) h g = g := by
  have hmask : topMinusP n >>> 31 - 1 = BitVec.allOnes 32 := by
    rw [topMinusP_of_eq heq]
    decide
  rw [hmask, maskSelect, BitVec.not_allOnes, BitVec.and_zero, BitVec.and_allOnes, BitVec.zero_or]

/-- The digits of h − p = h + 5 − 2^130 where h is at least p; the top digit is then 0 (R167). -/
def minusP (h : Vector Nat 5) : Vector Nat 5 :=
  let g0 := h[0] + 5
  let g1 := h[1] + (g0 >>> 26)
  let g2 := h[2] + (g1 >>> 26)
  let g3 := h[3] + (g2 >>> 26)
  #v[g0 &&& digitMask, g1 &&& digitMask, g2 &&& digitMask, g3 &&& digitMask, 0]

/-- The conditional subtraction with its top sum and top limb named (R167). -/
theorem condSub_eq (h : Vector Nat 5) :
    condSub h =
      let select := maskSelect (topMinusP (topWithFive h) >>> 31 - 1)
      #v[select (BitVec.ofNat 32 h[0]) (BitVec.ofNat 32 (minusP h)[0]),
        select (BitVec.ofNat 32 h[1]) (BitVec.ofNat 32 (minusP h)[1]),
        select (BitVec.ofNat 32 h[2]) (BitVec.ofNat 32 (minusP h)[2]),
        select (BitVec.ofNat 32 h[3]) (BitVec.ofNat 32 (minusP h)[3]),
        select (BitVec.ofNat 32 h[4]) (topMinusP (topWithFive h))] := rfl

/-- Five digits in 32-bit registers. -/
def registers (h : Vector Nat 5) : Vector Word 5 := h.map (BitVec.ofNat 32)

theorem registers_getElem (h : Vector Nat 5) {i : Nat} (hi : i < 5) : (registers h)[i] = BitVec.ofNat 32 h[i] :=
  Vector.getElem_map ..

theorem registers_toNat {h : Vector Nat 5} {i : Nat} (hi : i < 5) (hlt : h[i] < 2 ^ 26) :
    ((registers h)[i]).toNat = h[i] := by
  rw [registers_getElem, BitVec.toNat_ofNat]
  omega

theorem digits_minusP (h : Vector Nat 5) : Digits (minusP h) :=
  digits_mk (and_digitMask_lt _) (and_digitMask_lt _) (and_digitMask_lt _) (and_digitMask_lt _) (by decide)

/-- Without a carry to 2^26 the subtraction borrows, and h is kept. -/
theorem condSub_of_lt {h : Vector Nat 5} (hlt : topWithFive h < 2 ^ 26) : condSub h = registers h := by
  rw [condSub_eq]
  ext1 i hi
  rw [registers_getElem]
  interval_cases i <;> exact maskSelect_of_lt hlt _ _

/-- With a carry to 2^26 it is h − p that is kept. -/
theorem condSub_of_eq {h : Vector Nat 5} (heq : topWithFive h = 2 ^ 26) : condSub h = registers (minusP h) := by
  have htop : topMinusP (topWithFive h) = BitVec.ofNat 32 (minusP h)[4] := topMinusP_of_eq heq
  rw [condSub_eq]
  ext1 i hi
  rw [registers_getElem]
  interval_cases i
  on_goal 5 => exact (maskSelect_of_eq heq _ _).trans htop
  all_goals exact maskSelect_of_eq heq _ _

/-- The registers after the conditional subtraction hold the digits of h mod p (R167). -/
theorem condSub_reduces {h : Vector Nat 5} (hh : Digits h) :
    ∃ g, condSub h = registers g ∧ Digits g ∧ sumVal g = sumVal h % polyP := by
  have hle : topWithFive h ≤ 2 ^ 26 := by
    obtain ⟨h0, h1, h2, h3, h4⟩ := hh
    simp only [topWithFive, Nat.shiftRight_eq_div_pow]
    omega
  rcases hle.lt_or_eq with hlt | heq
  · refine ⟨h, condSub_of_lt hlt, hh, ?_⟩
    obtain ⟨h0, h1, h2, h3, h4⟩ := hh
    simp only [topWithFive, Nat.shiftRight_eq_div_pow] at hlt
    rw [sumVal, polyP_eq]
    omega
  · refine ⟨minusP h, condSub_of_eq heq, digits_minusP h, ?_⟩
    obtain ⟨h0, h1, h2, h3, h4⟩ := hh
    simp only [topWithFive, Nat.shiftRight_eq_div_pow] at heq
    rw [minusP, sumVal_mk]
    simp only [sumVal, and_digitMask, Nat.shiftRight_eq_div_pow, polyP_eq]
    omega

/-! The tag sum (R168). -/

/-- A value below 2^k ORed with another above it is their sum. -/
theorem toNat_or_shiftLeft {a : Word} {k : Nat} (ha : a.toNat < 2 ^ k) (b : Word) :
    (a ||| b <<< k).toNat = (a.toNat + b.toNat * 2 ^ k) % 2 ^ 32 := by
  have hsum : a.toNat ||| b.toNat <<< k = a.toNat + b.toNat * 2 ^ k := by
    rw [Nat.or_comm, ← Nat.shiftLeft_add_eq_or_of_lt ha, Nat.shiftLeft_eq, Nat.add_comm]
  have ha' : a.toNat % 2 ^ 32 = a.toNat := Nat.mod_eq_of_lt a.isLt
  rw [BitVec.toNat_or, BitVec.toNat_shiftLeft, ← hsum, Nat.or_mod_two_pow, ha']

/-- The packed words hold the low 128 of the 130 bits (R168). -/
theorem sVal_packWords {h : Vector Nat 5} (hh : Digits h) : sVal (packWords (registers h)) = sumVal h % 2 ^ 128 := by
  obtain ⟨h0, h1, h2, h3, h4⟩ := hh
  have h0' := registers_toNat (by decide) h0
  have h1' := registers_toNat (by decide) h1
  have h2' := registers_toNat (by decide) h2
  have h3' := registers_toNat (by decide) h3
  have h4' := registers_toNat (by decide) h4
  have hshift {a : Word} {k : Nat} (n : Nat) (ha : a.toNat / 2 ^ n < 2 ^ k) : (a >>> n).toNat < 2 ^ k := by
    rwa [BitVec.toNat_ushiftRight, Nat.shiftRight_eq_div_pow]
  rw [packWords, sVal_mk, toNat_or_shiftLeft (by omega), toNat_or_shiftLeft (hshift 6 (by omega)),
    toNat_or_shiftLeft (hshift 12 (by omega)), toNat_or_shiftLeft (hshift 18 (by omega))]
  simp only [BitVec.toNat_ushiftRight, Nat.shiftRight_eq_div_pow, h0', h1', h2', h3', h4', sumVal]
  omega

theorem sVal_addS (w ps : Vector Word 4) : sVal (addS w ps) = (sVal w + sVal ps) % 2 ^ 128 := by
  rw [addS, sVal_mk]
  simp only [sVal, BitVec.toNat_ofNat, Nat.shiftRight_eq_div_pow]
  omega

theorem bytesOfWords_toList (v : Vector Word 4) :
    (bytesOfWords v : Vector Byte 16).toList =
      bytesOfWord v[0] ++ bytesOfWord v[1] ++ bytesOfWord v[2] ++ bytesOfWord v[3] := rfl

theorem leNat_bytesOfWords (v : Vector Word 4) : leNat (bytesOfWords v : Vector Byte 16).toList = sVal v := by
  simp only [bytesOfWords_toList, leNat_append, leNat_bytesOfWord, sVal, List.length_append, bytesOfWord_length]
  ring

/-- The tag is ((a mod p) + s) mod 2^128 (R160, R169). -/
theorem leNat_polyFinish {pa : Vector Word 5} (ha : ABounds pa) (ps : Vector Word 4) :
    leNat (polyFinish pa ps).toList = (limbVal pa % polyP + sVal ps) % 2 ^ 128 := by
  obtain ⟨g, hregs, hdigits, hval⟩ := condSub_reduces (digits_finalCarry ha)
  rw [polyFinish, leNat_bytesOfWords, sVal_addS, hregs, sVal_packWords hdigits, hval, sumVal_finalCarry,
    Nat.mod_add_mod]

/-- Settles O26: the final carry keeps the value mod p, the subtraction reduces it, and packing and the sum are
mod 2^128. -/
theorem polyFinishTag : Obligations.PolyFinishTag := fun _ ps ha => leNat_polyFinish ha ps

end Sys2Proof.Machine
end

section
/-! Byte strings cut into blocks, and what a Poly1305 unit holds of them (spec/42_poly1305.md R160, R171, R181,
R182). -/

namespace Sys2Proof.Machine

/-! Slices of a byte array (R8). -/

theorem slice_append_slice {n lo mid hi : Nat} (b : Vector Byte n) (hlo : lo ≤ mid) (hhi : mid ≤ hi) :
    slice b lo mid ++ slice b mid hi = slice b lo hi := by
  have hdrop : b.toList.drop mid = (b.toList.drop lo).drop (mid - lo) := by
    rw [List.drop_drop, Nat.add_sub_cancel' hlo]
  rw [slice, slice, slice, hdrop, ← List.take_add, ← Nat.sub_add_sub_cancel hhi hlo, Nat.add_comm]

theorem slice_eq_bytesOfWord {n lo : Nat} (b : Vector Byte n) (h : lo + 4 ≤ n) :
    slice b lo (lo + 4) = bytesOfWord (le32 b lo) :=
  List.append_cancel_left ((slice_append_slice b (Nat.zero_le lo) (Nat.le_add_right lo 4)).trans
    (slice_append_word b h).symm)

/-- s is the little-endian number of the second half of the key (R162). -/
theorem sVal_sOperand (din : Vector Byte 64) : sVal (sOperand din) = leNat (slice din 16 32) := by
  have hlanes : sOperand din = #v[le32 din 16, le32 din 20, le32 din 24, le32 din 28] := rfl
  have hwords : slice din 16 32 = bytesOfWord (le32 din 16) ++ bytesOfWord (le32 din 20) ++
      bytesOfWord (le32 din 24) ++ bytesOfWord (le32 din 28) := by
    rw [← slice_eq_bytesOfWord din (by decide), ← slice_eq_bytesOfWord din (by decide),
      ← slice_eq_bytesOfWord din (by decide), ← slice_eq_bytesOfWord din (by decide),
      slice_append_slice din (by decide) (by decide), slice_append_slice din (by decide) (by decide),
      slice_append_slice din (by decide) (by decide)]
  rw [hlanes, hwords, sVal_mk]
  simp only [leNat_append, leNat_bytesOfWord, List.length_append, bytesOfWord_length]
  ring

/-! A byte string in a block. -/

theorem toBlock_getElem (bytes : List Byte) {i : Nat} (hi : i < 16) : (toBlock bytes)[i] = bytes[i]?.getD 0 :=
  Vector.getElem_ofFn ..

theorem toBlock_nil : toBlock [] = zeros 8 16 := by
  ext1 i hi
  rw [toBlock_getElem, zeros_getElem]
  rfl

theorem toBlock_append_byte (bytes : List Byte) (b : Byte) :
    (toBlock bytes).setIfInBounds bytes.length b = toBlock (bytes ++ [b]) := by
  ext1 i hi
  rw [Vector.getElem_setIfInBounds, toBlock_getElem, toBlock_getElem]
  rcases Nat.lt_trichotomy i bytes.length with hlt | rfl | hgt
  · rw [if_neg hlt.ne', List.getElem?_append_left hlt]
  · simp
  · rw [if_neg hgt.ne, List.getElem?_eq_none hgt.le, List.getElem?_eq_none (by simpa using hgt)]

theorem toBlock_toList {bytes : List Byte} (h : bytes.length ≤ 16) :
    (toBlock bytes).toList = bytes ++ List.replicate (16 - bytes.length) 0 := by
  refine List.ext_getElem (by simp [h]) fun i hi _ => ?_
  have hi16 : i < 16 := by simpa using hi
  rw [Vector.getElem_toList, toBlock_getElem, List.getElem_append]
  split
  · simp [*]
  · rw [List.getElem?_eq_none (by omega), List.getElem_replicate]
    rfl

theorem leNat_replicate_zero (n : Nat) : leNat (List.replicate n 0) = 0 := by
  induction n with
  | zero => rfl
  | succ n ih => rw [List.replicate_succ, leNat_cons, ih]; rfl

/-- Filling up with 0 keeps the little-endian number. -/
theorem leNat_toBlock {bytes : List Byte} (h : bytes.length ≤ 16) : leNat (toBlock bytes).toList = leNat bytes := by
  rw [toBlock_toList h, leNat_append, leNat_replicate_zero, Nat.mul_zero, Nat.add_zero]

/-! The full blocks of a byte string (R165). -/

theorem polyBlocks_zero (pa pr : Vector Word 5) (bytes : List Byte) : polyBlocks pa pr bytes 0 = pa := rfl

theorem polyBlocks_succ (pa pr : Vector Word 5) (bytes : List Byte) (q : Nat) :
    polyBlocks pa pr bytes (q + 1) =
      polyBlock (polyBlocks pa pr bytes q) pr (toBlock ((bytes.drop (16 * q)).take 16)) true := by
  simp only [polyBlocks, List.range_succ, List.foldl_append, List.foldl_cons, List.foldl_nil]

/-- Blocks that are there already do not change with what follows. -/
theorem polyBlocks_append (pa pr : Vector Word 5) {bytes : List Byte} {q : Nat} (h : 16 * q ≤ bytes.length)
    (more : List Byte) : polyBlocks pa pr (bytes ++ more) q = polyBlocks pa pr bytes q := by
  induction q with
  | zero => rw [polyBlocks_zero, polyBlocks_zero]
  | succ q ih =>
    have hblock : ((bytes ++ more).drop (16 * q)).take 16 = (bytes.drop (16 * q)).take 16 := by
      rw [List.drop_append_of_le_length (by omega), List.take_append_of_le_length (by simp; omega)]
    rw [polyBlocks_succ, polyBlocks_succ, ih (by omega), hblock]

/-! The unit (R181, R182). -/

/-- The bytes behind the last full block. -/
def restBytes (bytes : List Byte) : List Byte := bytes.drop (16 * (bytes.length / 16))

theorem restBytes_length (bytes : List Byte) : (restBytes bytes).length = bytes.length % 16 := by
  rw [restBytes, List.length_drop]
  omega

/-- The unit that has taken in these bytes since its accumulator was that of p: the full blocks are in the accumulator
and the rest is in the buffer. -/
def holding (p : P1305) (bytes : List Byte) : P1305 :=
  { p with
    pa := polyBlocks p.pa p.pr bytes (bytes.length / 16)
    pbuf := toBlock (restBytes bytes)
    pcnt := BitVec.ofNat 5 (bytes.length % 16) }

@[simp] theorem holding_pr (p : P1305) (bytes : List Byte) : (holding p bytes).pr = p.pr := rfl
@[simp] theorem holding_ps (p : P1305) (bytes : List Byte) : (holding p bytes).ps = p.ps := rfl
@[simp] theorem holding_pa (p : P1305) (bytes : List Byte) :
    (holding p bytes).pa = polyBlocks p.pa p.pr bytes (bytes.length / 16) := rfl

theorem holding_pcnt_toNat (p : P1305) (bytes : List Byte) :
    (holding p bytes).pcnt.toNat = bytes.length % 16 := by
  rw [holding, BitVec.toNat_ofNat]
  omega

/-- A byte put behind the buffered ones. -/
theorem holding_setByte (p : P1305) (bytes : List Byte) (b : Byte) :
    (holding p bytes).pbuf.setIfInBounds (holding p bytes).pcnt.toNat b = toBlock (restBytes bytes ++ [b]) := by
  rw [holding_pcnt_toNat, ← restBytes_length]
  exact toBlock_append_byte (restBytes bytes) b

theorem restBytes_append_byte {bytes : List Byte} (b : Byte) (h : bytes.length % 16 ≠ 15) :
    restBytes (bytes ++ [b]) = restBytes bytes ++ [b] := by
  have hq : (bytes.length + 1) / 16 = bytes.length / 16 := by omega
  rw [restBytes, restBytes, List.length_append, List.length_singleton, hq,
    List.drop_append_of_le_length (by omega)]

theorem holding_append_byte (p : P1305) (bytes : List Byte) (b : Byte) :
    absorbByte (holding p bytes) b = holding p (bytes ++ [b]) := by
  have hlen : (bytes ++ [b]).length = bytes.length + 1 := by simp
  have hcnt : (holding p bytes).pcnt + 1 = 16 ↔ bytes.length % 16 = 15 := by
    have := holding_pcnt_toNat p bytes
    bv_omega
  simp only [absorbByte, holding_setByte]
  by_cases hfull : bytes.length % 16 = 15
  · have hq : (bytes.length + 1) / 16 = bytes.length / 16 + 1 := by omega
    have hmod : (bytes.length + 1) % 16 = 0 := by omega
    have hrest : restBytes (bytes ++ [b]) = [] :=
      List.eq_nil_of_length_eq_zero (by rw [restBytes_length, hlen, hmod])
    have hblock : ((bytes ++ [b]).drop (16 * (bytes.length / 16))).take 16 = restBytes bytes ++ [b] := by
      rw [List.drop_append_of_le_length (by omega), ← restBytes, List.take_of_length_le]
      rw [List.length_append, restBytes_length, hfull, List.length_singleton]
    rw [if_pos (hcnt.mpr hfull), holding, holding, hrest, toBlock_nil, hlen, hq, hmod, polyBlocks_succ, hblock,
      polyBlocks_append _ _ (by omega)]
    rfl
  · have hq : (bytes.length + 1) / 16 = bytes.length / 16 := by omega
    have hmod : (bytes.length + 1) % 16 = bytes.length % 16 + 1 := by omega
    rw [if_neg (mt hcnt.mp hfull), holding, holding, restBytes_append_byte b hfull, hlen, hq, hmod,
      polyBlocks_append _ _ (by omega), BitVec.ofNat_add]
    rfl

theorem absorb_holding (p : P1305) (bytes more : List Byte) :
    absorb (holding p bytes) more = holding p (bytes ++ more) := by
  induction more generalizing bytes with
  | nil => simp
  | cons b more ih => rw [absorb_cons, holding_append_byte, ih, List.append_assoc, List.singleton_append]

/-- The bytes in the buffer. -/
def buffered (p : P1305) : List Byte := slice p.pbuf 0 p.pcnt.toNat

section
variable {p : P1305} (hp : P1305Inv p)
include hp

theorem buffered_length : (buffered p).length = p.pcnt.toNat := by
  have hle := hp.pcnt_le
  rw [buffered, slice_length]
  omega

theorem toBlock_buffered : toBlock (buffered p) = p.pbuf := by
  ext1 i hi
  rw [toBlock_getElem]
  by_cases hcnt : i < p.pcnt.toNat
  · simp [buffered, slice, hcnt, hi]
  · have hnone : (buffered p)[i]? = none := List.getElem?_eq_none (by rw [buffered_length hp]; omega)
    rw [hnone]
    exact (hp.tail_zero ⟨i, hi⟩ (by simpa using hcnt)).symm

theorem holding_buffered : holding p (buffered p) = p := by
  have hle := hp.pcnt_le
  have hq : p.pcnt.toNat / 16 = 0 := by omega
  have hmod : p.pcnt.toNat % 16 = p.pcnt.toNat := by omega
  have hrest : restBytes (buffered p) = buffered p := by
    rw [restBytes, buffered_length hp, hq, Nat.mul_zero, List.drop_zero]
  rw [holding, hrest, toBlock_buffered hp, buffered_length hp, hq, hmod, BitVec.ofNat_toNat, BitVec.setWidth_eq]
  rfl

theorem absorb_eq_holding (bytes : List Byte) : absorb p bytes = holding p (buffered p ++ bytes) := by
  rw [← absorb_holding, holding_buffered hp]

end

end Sys2Proof.Machine
end

section
/-! The tag of a message as an integer (spec/42_poly1305.md R160, R169, R171): the blocks the unit has processed are
the chunks of the message. -/

namespace Sys2Proof.Machine

/-! The chunks (R160). -/

/-- The first q full chunks of a message. -/
def fullChunks (m : List Byte) (q : Nat) : List (List Byte) := (List.range q).map fun k => (m.drop (16 * k)).take 16

/-- The tail: the chunk of fewer than 16 bytes at the end, if there is one. -/
def tailChunk (m : List Byte) : List (List Byte) := if m.length % 16 = 0 then [] else [restBytes m]

theorem fullChunks_zero (m : List Byte) : fullChunks m 0 = [] := rfl

theorem fullChunks_succ (m : List Byte) (q : Nat) :
    fullChunks m (q + 1) = fullChunks m q ++ [(m.drop (16 * q)).take 16] := by
  rw [fullChunks, List.range_succ, List.map_append]
  rfl

/-- The first chunk, and those of what is behind it. -/
theorem fullChunks_drop (m : List Byte) (q : Nat) : fullChunks m (q + 1) = m.take 16 :: fullChunks (m.drop 16) q := by
  simp [fullChunks, List.range_succ_eq_map, Function.comp_def, Nat.mul_succ, Nat.add_comm]

theorem tailChunk_drop {m : List Byte} (h : 16 ≤ m.length) : tailChunk (m.drop 16) = tailChunk m := by
  have hmod : (m.length - 16) % 16 = m.length % 16 := by omega
  have hrest : 16 + 16 * ((m.length - 16) / 16) = 16 * (m.length / 16) := by omega
  rw [tailChunk, tailChunk, restBytes, restBytes, List.length_drop, List.drop_drop, hmod, hrest]

theorem chunks16_nil (fuel : Nat) : chunks16 fuel [] = [] := by
  cases fuel <;> rfl

/-- With enough fuel the chunks are the full ones and the tail. -/
theorem chunks16_eq {fuel : Nat} {m : List Byte} (h : m.length ≤ fuel) :
    chunks16 fuel m = fullChunks m (m.length / 16) ++ tailChunk m := by
  induction fuel generalizing m with
  | zero =>
    obtain rfl := List.eq_nil_of_length_eq_zero (Nat.le_zero.mp h)
    rfl
  | succ fuel ih =>
    by_cases hnil : m = []
    · subst hnil
      rfl
    have hpos : 0 < m.length := List.length_pos_iff.mpr hnil
    rw [chunks16, if_neg (by simpa using hnil)]
    by_cases hfull : 16 ≤ m.length
    · have hq : m.length / 16 = (m.length - 16) / 16 + 1 := by omega
      rw [ih (by rw [List.length_drop]; omega), tailChunk_drop hfull, List.length_drop, hq, fullChunks_drop,
        List.cons_append]
    · have hq : m.length / 16 = 0 := by omega
      have htail : tailChunk m = [m] := by
        rw [tailChunk, if_neg (by omega), restBytes, hq, Nat.mul_zero, List.drop_zero]
      rw [List.drop_of_length_le (by omega), List.take_of_length_le (by omega), chunks16_nil, htail, hq]
      rfl

/-! The accumulator (R160, R165, R171). -/

/-- a ← ((a + n_k)·r) mod p (R160). -/
def polyStep (r a : Nat) (c : List Byte) : Nat := (a + chunkInt c) * r % polyP

theorem polyAcc_eq (r : Nat) (m : List Byte) : polyAcc r m = (chunks16 m.length m).foldl (polyStep r) 0 := rfl

/-- The integer of a chunk is that of the chunk with the byte 0x01 behind it. -/
theorem chunkInt_eq (c : List Byte) : chunkInt c = leNat (c ++ [0x01]) := by
  rw [leNat_append]
  simp [chunkInt]

section
variable {pa pr : Vector Word 5} (ha : ABounds pa) (hr : RBounds pr)
include ha hr

/-- A block whose number is that of a chunk takes the step of the chunk. -/
theorem limbVal_polyBlock_chunk {b : Vector Byte 16} {hb : Bool} {c : List Byte}
    (h : leNat b.toList + hb.toNat * 2 ^ 128 = chunkInt c) :
    limbVal (polyBlock pa pr b hb) % polyP = polyStep (limbVal pr) (limbVal pa % polyP) c := by
  rw [limbVal_polyBlock_mod ha hr, Nat.add_assoc, h, polyStep]
  exact (((Nat.mod_modEq _ _).symm.add_right _).mul_right _)

theorem limbVal_fullBlock {c : List Byte} (hc : c.length = 16) :
    limbVal (polyBlock pa pr (toBlock c) true) % polyP = polyStep (limbVal pr) (limbVal pa % polyP) c := by
  refine limbVal_polyBlock_chunk ha hr ?_
  rw [leNat_toBlock hc.le, chunkInt, hc, Bool.toNat_true, Nat.one_mul]

theorem limbVal_tailBlock {c : List Byte} (hc : c.length < 16) :
    limbVal (polyBlock pa pr (toBlock (c ++ [0x01])) false) % polyP =
      polyStep (limbVal pr) (limbVal pa % polyP) c := by
  refine limbVal_polyBlock_chunk ha hr ?_
  rw [leNat_toBlock (by simpa using hc), chunkInt_eq, Bool.toNat_false, Nat.zero_mul, Nat.add_zero]

/-- The blocks take the steps of the full chunks, one after the other, within the bounds of R170. -/
theorem limbVal_polyBlocks {m : List Byte} {q : Nat} (hq : 16 * q ≤ m.length) :
    ABounds (polyBlocks pa pr m q) ∧
      limbVal (polyBlocks pa pr m q) % polyP = (fullChunks m q).foldl (polyStep (limbVal pr)) (limbVal pa % polyP) := by
  induction q with
  | zero =>
    rw [polyBlocks_zero, fullChunks_zero, List.foldl_nil]
    exact ⟨ha, rfl⟩
  | succ q ih =>
    obtain ⟨hbounds, hval⟩ := ih (by omega)
    have hlength : ((m.drop (16 * q)).take 16).length = 16 := by
      rw [List.length_take, List.length_drop]
      omega
    rw [polyBlocks_succ, fullChunks_succ, List.foldl_append, List.foldl_cons, List.foldl_nil, ← hval]
    exact ⟨polyBlock_aBounds hbounds hr _ _, limbVal_fullBlock hbounds hr hlength⟩

end

/-- The accumulator of a unit that holds a message, with the tail: every chunk's step has been taken. -/
theorem limbVal_accWithTail {p : P1305} (ha : ABounds p.pa) (hr : RBounds p.pr) (m : List Byte) :
    ABounds (accWithTail (holding p m)) ∧
      limbVal (accWithTail (holding p m)) % polyP =
        (chunks16 m.length m).foldl (polyStep (limbVal p.pr)) (limbVal p.pa % polyP) := by
  obtain ⟨hbounds, hval⟩ := limbVal_polyBlocks ha hr (Nat.mul_div_le m.length 16)
  have hpcnt : (holding p m).pcnt = 0 ↔ m.length % 16 = 0 := by
    rw [← holding_pcnt_toNat p m]
    bv_omega
  rw [chunks16_eq le_rfl, List.foldl_append, ← hval, tailChunk, accWithTail]
  by_cases htail : m.length % 16 = 0
  · rw [if_pos (hpcnt.mpr htail), if_pos htail, holding_pa, List.foldl_nil]
    exact ⟨hbounds, rfl⟩
  · have hlength : (restBytes m).length < 16 := by
      rw [restBytes_length]
      exact Nat.mod_lt _ (by decide)
    rw [if_neg (mt hpcnt.mp htail), if_neg htail, holding_pa, holding_pr, tailBlock, holding_setByte, List.foldl_cons,
      List.foldl_nil]
    exact ⟨polyBlock_aBounds hbounds hr _ _, limbVal_tailBlock hbounds hr hlength⟩

theorem limbVal_zeros : limbVal (zeros 32 5) = 0 := by simp [limbVal]

/-- The tag of a message on a unit that started from the accumulator 0 (R160). -/
theorem leNat_computeTag {p : P1305} (ha : p.pa = zeros 32 5) (hr : RBounds p.pr) (m : List Byte) :
    leNat (computeTag (holding p m)).toList = (polyAcc (limbVal p.pr) m + sVal p.ps) % 2 ^ 128 := by
  obtain ⟨hbounds, hval⟩ := limbVal_accWithTail (ha ▸ aBounds_zeros) hr m
  rw [computeTag, leNat_polyFinish hbounds, hval, ha, limbVal_zeros, Nat.zero_mod, ← polyAcc_eq, holding_ps]

end Sys2Proof.Machine
end

section
/-! The commands of the Poly1305 unit (spec/42_poly1305.md R180-R189). -/

namespace Sys2Proof.Machine

/-! The compare (R185) and the tag in the buffers (R183, R184). -/

theorem ctEq_iff (t e : Vector Byte 16) : ctEq t e = true ↔ t = e := by
  refine ⟨eq_of_ctEq, ?_⟩
  rintro rfl
  rw [ctEq, beq_iff_eq]
  refine (foldl_or_xor_eq_zero _ _).mpr ⟨rfl, fun d hd => ?_⟩
  obtain ⟨k, hk, rfl⟩ := List.mem_iff_getElem.mp hd
  simp

/-- Settles O29: the fold is 0 exactly when no pair of bytes differs. -/
theorem compareIsEquality : Obligations.CompareIsEquality := ctEq_iff

theorem tagOutput_getElem (tag : Vector Byte 16) (i : Fin 64) :
    (tagOutput tag (zeros 8 64))[i] = if i.val < 16 then byteAt tag i.val else 0 := by
  by_cases hi : i.val < 16
  · simp [tagOutput, hi, byteAt_eq]
  · simp [tagOutput, hi]

theorem slice_tagOutput (tag : Vector Byte 16) (dout : Vector Byte 64) :
    slice (tagOutput tag dout) 0 16 = tag.toList := by
  refine List.ext_getElem (by simp [slice_length]) fun i _ hi => ?_
  have hi16 : i < 16 := by simpa using hi
  simp [slice, tagOutput, hi16]

theorem tagOperand_toList (din : Vector Byte 64) : (tagOperand din).toList = slice din 0 16 := by
  refine List.ext_getElem (by simp [slice_length]) fun i hi _ => ?_
  have hi16 : i < 16 := by simpa using hi
  simp [slice, tagOperand, byteAt_eq _ (show i < 64 by omega)]

/-! What each command leaves. -/

/-- A command of this unit has completed without error and has left p in it. -/
structure PolyDone (p : P1305) (s t : State) : Prop where
  frame : FrameDone .ok s t
  ksg : t.ksg = s.ksg
  dp : t.dp = s.dp
  unit : t.p = p

/-- What a wiped unit holds (R186, R189). -/
theorem PolyDone.wiped {x : Pst} {s t : State} (h : PolyDone (.wiped x) s t) :
    t.p.pr = zeros 32 5 ∧ t.p.ps = zeros 32 4 ∧ t.p.pa = zeros 32 5 ∧ t.p.pbuf = zeros 8 16 ∧ t.p.pcnt = 0 ∧
      t.p.pst = x := by
  rw [h.unit]
  exact ⟨rfl, rfl, rfl, rfl, rfl, rfl⟩

/-- The unit that P_INIT keys (R161, R162, R180). -/
def keyedUnit (din : Vector Byte 64) : P1305 where
  pr := splitR (rOperand din)
  ps := sOperand din
  pa := zeros 32 5
  pbuf := zeros 8 16
  pcnt := 0
  pst := .absorb

theorem p1305Inv_keyedUnit (din : Vector Byte 64) : P1305Inv (keyedUnit din) :=
  (CommandDone.pInit (s := withDin din .reset)).p1305Inv (p1305Inv_wiped .unkeyed)

theorem exec_pInit (s : State) :
    ∃ t, exec .pInit s = .next t ∧ PolyDone (keyedUnit s.io.din) s t ∧ NoOutput t := by
  have hdone := CommandDone.pInit (s := beginCommand s)
  exact ⟨_, hdone.exec_eq, ⟨hdone.frameDone, by simp, by simp, by simp [keyedUnit]⟩, by simp, by simp, by simp⟩

theorem exec_pClear (s : State) :
    ∃ t, exec .pClear s = .next t ∧ PolyDone (.wiped .unkeyed) s t ∧ NoOutput t := by
  have hdone := CommandDone.pClear (s := beginCommand s)
  exact ⟨_, hdone.exec_eq, ⟨hdone.frameDone, by simp, by simp, by simp⟩, by simp, by simp, by simp⟩

section
variable {s : State}

section
variable (absorbing : s.p.pst = .absorb)
include absorbing

theorem exec_pUpdate_absorbing {len : BitVec 7} (hle : len.toNat ≤ 64) :
    ∃ t, exec (.pUpdate len) s = .next t ∧ PolyDone (absorb s.p (slice s.io.din 0 len.toNat)) s t ∧
      NoOutput t := by
  have hdone := CommandDone.pUpdate (s := beginCommand s) len (legalLen_of_le hle) (by simpa using absorbing)
  exact ⟨_, hdone.exec_eq, ⟨hdone.frameDone, by simp, by simp, by simp [messageOperand]⟩,
    by simp, by simp, by simp⟩

theorem exec_pFinal_absorbing :
    ∃ t, exec .pFinal s = .next t ∧ PolyDone (.wiped .spent) s t ∧
      t.io.dout = tagOutput (computeTag s.p) (zeros 8 64) ∧ t.io.outlen = 16 ∧ t.io.matched = false := by
  have hdone := CommandDone.pFinal (s := beginCommand s) (by simpa using absorbing)
  exact ⟨_, hdone.exec_eq, ⟨hdone.frameDone, by simp, by simp, by simp⟩, by simp, by simp, by simp⟩

theorem exec_pVerify_absorbing :
    ∃ t, exec .pVerify s = .next t ∧ PolyDone (.wiped .spent) s t ∧ t.io.dout = zeros 8 64 ∧ t.io.outlen = 0 ∧
      t.io.matched = ctEq (computeTag s.p) (tagOperand s.io.din) := by
  have hdone := CommandDone.pVerify (s := beginCommand s) (by simpa using absorbing)
  exact ⟨_, hdone.exec_eq, ⟨hdone.frameDone, by simp, by simp, by simp⟩, by simp, by simp, by simp⟩

end

/-! The refusals outside ABSORB (R188). -/

section
variable (idle : s.p.pst ≠ .absorb)
include idle

theorem exec_pUpdate_refused {len : BitVec 7} (hle : len.toNat ≤ 64) :
    ∃ t, exec (.pUpdate len) s = .next t ∧ TurnedAway .orderingViolation s t :=
  exec_turnedAway (by simp [bodyOf, bodyPUpdate, legalLen_of_le hle, idle])

theorem exec_pFinal_refused : ∃ t, exec .pFinal s = .next t ∧ TurnedAway .orderingViolation s t :=
  exec_turnedAway (by simp [bodyOf, bodyPFinal, idle])

theorem exec_pVerify_refused : ∃ t, exec .pVerify s = .next t ∧ TurnedAway .orderingViolation s t :=
  exec_turnedAway (by simp [bodyOf, bodyPVerify, idle])

end

end

/-- Settles O19: P_INIT asks nothing of the unit; its limbs are digits of the clamped r. -/
theorem pInitKeysUnit : Obligations.PInitKeysUnit := by
  refine ⟨by decide, fun s => ?_⟩
  obtain ⟨t, ht, ⟨hframe, hksg, hdp, hunit⟩, hout⟩ := exec_pInit s
  refine ⟨t, ht, hframe, hout, hksg, hdp, ?_⟩
  rw [hunit]
  exact ⟨splitR_toNat _, fun i => Vector.getElem_ofFn .., sVal_sOperand _, rfl, rfl, rfl, rfl⟩

/-- Settles O23: P_CLEAR asks nothing of the unit, leaves what it would leave again, and an unkeyed unit refuses a
message. -/
theorem pClearWipes : Obligations.PClearWipes := by
  refine ⟨by decide, fun s => ?_⟩
  obtain ⟨t, ht, hdone, hout⟩ := exec_pClear s
  obtain ⟨hpr, hps, hpa, hpbuf, hpcnt, hpst⟩ := hdone.wiped
  obtain ⟨u, hu, hagain, -⟩ := exec_pClear t
  have hidle : t.p.pst ≠ .absorb := by simp [hpst]
  exact ⟨t, ht, hdone.frame, hout, hdone.ksg, hdone.dp, hpr, hps, hpa, hpbuf, hpcnt, hpst,
    ⟨u, hu, hagain.ksg, hagain.dp, hagain.unit.trans hdone.unit.symm⟩,
    fun len hle => (exec_pUpdate_refused hidle hle).imp fun v ⟨hv, haway⟩ => ⟨hv, haway.frame.err⟩⟩

/-! P_UPDATE (R181, R182). -/

theorem encode_pUpdate_toNat (len : BitVec 7) : (encode (.pUpdate len)).toNat = 0x12 + 2 ^ 8 * len.toNat := by
  have hlen := len.isLt
  simp only [encode, Instr.opcode, Instr.lenBits, BitVec.ofNat_eq_ofNat, BitVec.toNat_ofNat]
  omega

/-- Settles O20: the unit holds the buffered bytes and then those of DIN. -/
theorem pUpdateAbsorbs : Obligations.PUpdateAbsorbs := by
  refine ⟨encode_pUpdate_toNat, fun len s hle absorbing hinv => ?absorbs, fun s absorbing => ?none,
    fun len s hle idle => exec_pUpdate_refused idle hle⟩
  case absorbs =>
    obtain ⟨t, ht, ⟨hframe, hksg, hdp, hunit⟩, hout⟩ := exec_pUpdate_absorbing absorbing hle
    have hlength : (buffered s.p ++ slice s.io.din 0 len.toNat).length = s.p.pcnt.toNat + len.toNat := by
      rw [List.length_append, buffered_length hinv, slice_length]
      omega
    have hpst : t.p.pst = .absorb := by rw [hunit, absorb_pst, absorbing]
    rw [absorb_eq_holding hinv] at hunit
    refine ⟨t, ht, hframe, hout, hksg, hdp, ?_⟩
    rw [hunit] at hpst ⊢
    exact ⟨rfl, rfl, hpst, by rw [holding_pcnt_toNat, hlength], rfl, rfl⟩
  case none =>
    obtain ⟨t, ht, ⟨hframe, hksg, hdp, hunit⟩, -⟩ := exec_pUpdate_absorbing (len := 0) absorbing (by decide)
    exact ⟨t, ht, hframe, hksg, hdp, hunit⟩

/-! P_FINAL and P_VERIFY (R183, R184, R189). -/

theorem accWithTail_eq {p : P1305} (hp : P1305Inv p) :
    accWithTail p =
      if p.pcnt.toNat = 0 then p.pa else polyBlock p.pa p.pr (toBlock (buffered p ++ [0x01])) false := by
  have hzero : p.pcnt = 0 ↔ p.pcnt.toNat = 0 := by bv_omega
  rw [accWithTail, tailBlock, ← toBlock_append_byte, toBlock_buffered hp, buffered_length hp]
  simp only [hzero]

theorem sVal_lt (ps : Vector Word 4) : sVal ps < 2 ^ 128 := by
  rw [sVal]
  omega

/-- With nothing absorbed the tag is s (R160). -/
theorem leNat_computeTag_empty {p : P1305} (ha : p.pa = zeros 32 5) (hcnt : p.pcnt = 0) :
    leNat (computeTag p).toList = sVal p.ps := by
  rw [computeTag, accWithTail, if_pos hcnt, ha, leNat_polyFinish aBounds_zeros, limbVal_zeros, Nat.zero_mod,
    Nat.zero_add, Nat.mod_eq_of_lt (sVal_lt p.ps)]

/-- Settles O21: the tag is that of the accumulator with the padded tail, and a spent unit refuses another. -/
theorem pFinalOutputsTag : Obligations.PFinalOutputsTag := by
  refine ⟨by decide, fun s absorbing hinv => ?_, fun s => exec_pFinal_refused⟩
  obtain ⟨t, ht, hdone, hdout, houtlen, hmatched⟩ := exec_pFinal_absorbing absorbing
  obtain ⟨hpr, hps, hpa, hpbuf, hpcnt, hpst⟩ := hdone.wiped
  refine ⟨t, ht, hdone.frame, hdone.ksg, hdone.dp, houtlen, hmatched, ?tag, hpr, hps, hpa, hpbuf, hpcnt, hpst,
    fun hacc hcnt => ?empty, exec_pFinal_refused (by simp [hpst])⟩
  case tag =>
    intro n h i
    rw [hdout, tagOutput_getElem, computeTag, accWithTail_eq hinv]
    rfl
  case empty => rw [hdout, slice_tagOutput, leNat_computeTag_empty hacc hcnt]

/-- Settles O22: both commands compute one tag, and the compare is equality. -/
theorem pVerifyCompares : Obligations.PVerifyCompares := by
  refine ⟨by decide, fun s absorbing => ?_, fun s => exec_pVerify_refused⟩
  obtain ⟨t, ht, hdone, hdout, houtlen, hmatched⟩ := exec_pVerify_absorbing absorbing
  obtain ⟨u, hu, -, htag, -⟩ := exec_pFinal_absorbing absorbing
  refine ⟨t, u, ht, hu, hdone.frame, hdone.ksg, hdone.dp, hdout, houtlen, ?_, hdone.wiped⟩
  rw [hmatched, ctEq_iff, htag, slice_tagOutput, ← tagOperand_toList, Vector.toList_inj]

/-! The lifecycle (R188). -/

/-- The commands of the KSG leave PST. -/
theorem exec_ksg_pst {i : Instr} (hi : i.unit = .ksg) {s t : State} (h : exec i s = .next t) :
    t.p.pst = s.p.pst := by
  rcases exec_cases h with ⟨u, hdone, rfl⟩ | ⟨e, haway⟩
  · rcases hdone.pst_moves with hsame | ⟨-, rfl⟩ | ⟨-, rfl | rfl⟩ | ⟨-, rfl⟩
    · simpa using hsame
    all_goals cases hi
  · rw [haway.units.p]

/-- A command that requires ABSORB, from what it does in ABSORB and outside. -/
theorem exec_requires_absorb {i : Instr} {s : State} {x : Pst}
    (hdone : s.p.pst = .absorb → ∃ t, exec i s = .next t ∧ t.p.pst = x ∧ t.io.err = .ok)
    (haway : s.p.pst ≠ .absorb → ∃ t, exec i s = .next t ∧ TurnedAway .orderingViolation s t) :
    ∃ t, exec i s = .next t ∧ (s.p.pst = .absorb → t.p.pst = x ∧ t.io.err = .ok) ∧
      (s.p.pst ≠ .absorb → TurnedAway .orderingViolation s t) := by
  by_cases hpst : s.p.pst = .absorb
  · exact (hdone hpst).imp fun t ⟨ht, hend⟩ => ⟨ht, fun _ => hend, fun hne => absurd hpst hne⟩
  · exact (haway hpst).imp fun t ⟨ht, hend⟩ => ⟨ht, fun heq => absurd heq hpst, fun _ => hend⟩

/-- Settles O30, command by command. -/
theorem lifecycleTransitions : Obligations.LifecycleTransitions := by
  intro i s hwf
  cases i with
  | pInit => exact (exec_pInit s).imp fun t ⟨ht, hdone, _⟩ => ⟨ht, congrArg P1305.pst hdone.unit⟩
  | pClear => exact (exec_pClear s).imp fun t ⟨ht, hdone, _⟩ => ⟨ht, congrArg P1305.pst hdone.unit⟩
  | pUpdate len =>
    have hle : len.toNat ≤ 64 := by simpa [Instr.wellFormed, legalLen] using hwf
    refine exec_requires_absorb (fun absorbing => ?_) fun idle => exec_pUpdate_refused idle hle
    exact (exec_pUpdate_absorbing absorbing hle).imp fun t ⟨ht, hdone, _⟩ =>
      ⟨ht, by rw [hdone.unit, absorb_pst, absorbing], hdone.frame.err⟩
  | pFinal =>
    refine exec_requires_absorb (fun absorbing => ?_) exec_pFinal_refused
    exact (exec_pFinal_absorbing absorbing).imp fun t ⟨ht, hdone, _⟩ =>
      ⟨ht, congrArg P1305.pst hdone.unit, hdone.frame.err⟩
  | pVerify =>
    refine exec_requires_absorb (fun absorbing => ?_) exec_pVerify_refused
    exact (exec_pVerify_absorbing absorbing).imp fun t ⟨ht, hdone, _⟩ =>
      ⟨ht, congrArg P1305.pst hdone.unit, hdone.frame.err⟩
  | ccInit | ccSetctr | ccBlock | ccXor | ccClear =>
    exact (exec_next _ s).imp fun t ht => ⟨ht, exec_ksg_pst rfl ht⟩

/-! A message in chunks (R187). -/

theorem updateAll_cons {s t : State} {c : Chunk} (h : exec (.pUpdate c.2) (withDin c.1 s) = .next t)
    (cs : List Chunk) : updateAll s (c :: cs) = updateAll t cs := by
  simp [updateAll, h]

/-- Absorbing a message in chunks is absorbing it at once. -/
theorem updateAll_eq_absorb {s : State} {cs : List Chunk} (absorbing : s.p.pst = .absorb)
    (hlens : ∀ c ∈ cs, c.2.toNat ≤ 64) :
    ∃ t, updateAll s cs = .next t ∧ t.p = absorb s.p (messageOf cs) := by
  induction cs generalizing s with
  | nil => exact ⟨s, rfl, rfl⟩
  | cons c cs ih =>
    rw [List.forall_mem_cons] at hlens
    obtain ⟨t, ht, hdone, -⟩ := exec_pUpdate_absorbing (s := withDin c.1 s) (by simpa using absorbing) hlens.1
    have hunit : t.p = absorb s.p (chunkBytes c) := by simpa [chunkBytes] using hdone.unit
    obtain ⟨u, hu, hup⟩ := ih (s := t) (by rw [hunit, absorb_pst, absorbing]) hlens.2
    refine ⟨u, (updateAll_cons ht cs).trans hu, ?_⟩
    rw [hup, hunit, ← absorb_append, messageOf, messageOf, List.flatMap_cons]

/-- Settles O28: both partitions absorb the one message. -/
theorem chunkingInvariance : Obligations.ChunkingInvariance := by
  intro s cs cs' absorbing hlens hlens' hmessage
  obtain ⟨t, ht, hp⟩ := updateAll_eq_absorb absorbing hlens
  obtain ⟨t', ht', hp'⟩ := updateAll_eq_absorb absorbing hlens'
  exact ⟨t, t', ht, ht', by rw [hp, hp', hmessage]⟩

theorem absorb_keyedUnit (din : Vector Byte 64) (m : List Byte) :
    absorb (keyedUnit din) m = holding (keyedUnit din) m := by
  have hempty : buffered (keyedUnit din) = [] := by simp [buffered, slice, keyedUnit]
  rw [absorb_eq_holding (p1305Inv_keyedUnit din), hempty, List.nil_append]

/-- The tag of R160 in terms of the unit that P_INIT keys with the same key. -/
theorem polyTag_eq (din : Vector Byte 64) (m : List Byte) :
    polyTag (slice din 0 32) m = (polyAcc (limbVal (keyedUnit din).pr) m + sVal (keyedUnit din).ps) % 2 ^ 128 := by
  have hlength : (slice din 0 16).length = 16 := by simp [slice_length]
  have hs : (slice din 16 32).take 16 = slice din 16 32 := List.take_of_length_le (by simp [slice_length])
  have hr : limbVal (keyedUnit din).pr = clamp (leNat (slice din 0 16)) := limbVal_splitR _
  have hps : sVal (keyedUnit din).ps = leNat (slice din 16 32) := sVal_sOperand din
  rw [polyTag, ← slice_append_slice din (show 0 ≤ 16 by decide) (show 16 ≤ 32 by decide), List.take_left' hlength,
    List.drop_left' hlength, hs, hr, hps]

/-- Settles O27: the keyed unit absorbs the message, and its tag is the integer one. -/
theorem messageTagIsInteger : Obligations.MessageTagIsInteger := by
  intro s key cs hlens
  obtain ⟨t, ht, hkeyed, -⟩ := exec_pInit (withDin key s)
  have htp : t.p = keyedUnit key := by simpa using hkeyed.unit
  obtain ⟨u, hu, hup⟩ := updateAll_eq_absorb (s := t) (by rw [htp]; rfl) hlens
  rw [htp] at hup
  obtain ⟨v, hv, hdone, hdout, houtlen, -⟩ := exec_pFinal_absorbing (s := u) (by rw [hup, absorb_pst]; rfl)
  refine ⟨t, u, v, ht, hu, hv, hdone.frame.err, houtlen, ?_⟩
  rw [hdout, slice_tagOutput, hup, absorb_keyedUnit,
    leNat_computeTag rfl (p1305Inv_keyedUnit key).r_bounds, polyTag_eq]

end Sys2Proof.Machine
end

section
/-! Which error the CORE's step ends with and what an error leaves (spec/60_exceptions.md R201-R204, R210). -/

namespace Sys2Proof.Machine

/-! An error is precise (R203, R210). -/

/-- Settles O32: a command that is turned away has written what the frame writes and nothing else. -/
theorem errorsChangeNoUnit : Obligations.ErrorsChangeNoUnit := by
  intro s
  obtain ⟨t, ht⟩ := coreStep_next s
  refine ⟨t, ht, fun herr => ?_⟩
  rcases coreStep_effect ht with ⟨i, u, -, -, rfl⟩ | ⟨e, -, -, rfl⟩
  · simp at herr
  · simpa using turnedAway_raise e s

/-- Settles O35: AuthFail is outside the interface's invariant, and P_VERIFY on an absorbing unit completes with the
compare in MATCH. -/
theorem authFailNever : Obligations.AuthFailNever := by
  refine ⟨fun s => ?never, fun s absorbing hdiffer => ?mismatch⟩
  case never => exact (coreStep_next s).imp fun t ht => ⟨ht, (coreStep_interfaceInv ht).no_authFail⟩
  case mismatch =>
    obtain ⟨t, ht, hdone, -, -, hmatched⟩ := exec_pVerify_absorbing absorbing
    refine ⟨t, ht, hdone.frame.err, ?_⟩
    rw [hmatched, Bool.eq_false_iff]
    exact fun hmatch => hdiffer (eq_of_ctEq hmatch)

/-! The error of a command (R201, R202). -/

/-- The code ERR takes from a body's answer (R204). -/
@[simp] def errOf : Except ErrCode State → ErrCode
  | .ok _ => .ok
  | .error e => e

theorem exec_err {i : Instr} {s t : State} (h : exec i s = .next t) : t.io.err = errOf (bodyOf i (beginCommand s)) := by
  rw [exec_eq_runCommand] at h
  rcases runCommand_cases h with ⟨u, hu, rfl⟩ | ⟨e, he, rfl⟩
  · simp [hu]
  · simp [he]

/-- The unit states in which a command is out of order (R201). -/
@[simp] def OutOfOrder (s : State) : Instr → Prop
  | .ccSetctr => s.ksg.keyed = false ∨ s.ksg.used = true
  | .ccBlock | .ccXor _ => s.ksg.keyed = false
  | .pUpdate _ | .pFinal | .pVerify => s.p.pst ≠ .absorb
  | .ccInit | .ccClear | .pInit | .pClear => False

/-- The unit states in which a command asks for a block after the last one (R201). -/
@[simp] def BeyondLastBlock (s : State) : Instr → Prop
  | .ccBlock => s.ksg.keyed = true ∧ s.ksg.exh = true
  | .ccXor len => s.ksg.keyed = true ∧ 1 ≤ len.toNat ∧ s.ksg.exh = true
  | .ccInit | .ccSetctr | .ccClear | .pInit | .pUpdate _ | .pFinal | .pVerify | .pClear => False

/-- The unit state decides what a well-formed command's body raises, branch by branch of the body. -/
theorem errOf_bodyOf_iff {i : Instr} (hwf : i.wellFormed = true) (s : State) :
    (errOf (bodyOf i s) = .orderingViolation ↔ OutOfOrder s i) ∧
    (errOf (bodyOf i s) = .lengthExceeded ↔ BeyondLastBlock s i) := by
  cases i with
  | ccInit | ccClear | pInit | pClear => exact ⟨⟨nofun, nofun⟩, ⟨nofun, nofun⟩⟩
  | ccSetctr =>
    rcases bodyCcSetctr_cases (s := s) rfl with ⟨h, hwrong⟩ | ⟨h, hkeyed, hunused⟩
    · simp [bodyOf, h, hwrong]
    · simp [bodyOf, h, hkeyed, hunused]
  | ccBlock =>
    rcases bodyCcBlock_cases (s := s) rfl with ⟨h, hunkeyed⟩ | ⟨h, hkeyed, hexh⟩ | ⟨h, hkeyed, hlive⟩
    · simp [bodyOf, h, hunkeyed]
    · simp [bodyOf, h, hkeyed, hexh]
    · simp [bodyOf, h, hkeyed, hlive]
  | ccXor len =>
    have hpos : 1 ≤ len.toNat ↔ len ≠ 0 := by bv_omega
    rcases bodyCcXor_cases (len := len) (s := s) rfl with
      ⟨-, hlong⟩ | ⟨h, -, hunkeyed⟩ | ⟨h, hzero, hkeyed⟩ | ⟨h, -, hkeyed, hnonzero, hexh⟩ | ⟨h, -, hkeyed, -, hlive⟩
    · simp [Instr.wellFormed, hlong] at hwf
    · simp [bodyOf, h, hunkeyed]
    · have hnone : ¬ 1 ≤ len.toNat := fun hone => hpos.mp hone hzero
      simp [bodyOf, h, hkeyed, hnone]
    · simp [bodyOf, h, hkeyed, hpos.mpr hnonzero, hexh]
    · simp [bodyOf, h, hkeyed, hlive]
  | pUpdate len =>
    rcases bodyPUpdate_cases (len := len) (s := s) rfl with ⟨-, hlong⟩ | ⟨h, -, hpst⟩ | ⟨h, -, hpst⟩
    · simp [Instr.wellFormed, hlong] at hwf
    · simp [bodyOf, h, hpst]
    · simp [bodyOf, h, hpst]
  | pFinal =>
    rcases bodyPFinal_cases (s := s) rfl with ⟨h, hpst⟩ | ⟨h, hpst⟩
    · simp [bodyOf, h, hpst]
    · simp [bodyOf, h, hpst]
  | pVerify =>
    rcases bodyPVerify_cases (s := s) rfl with ⟨h, hpst⟩ | ⟨h, hpst⟩
    · simp [bodyOf, h, hpst]
    · simp [bodyOf, h, hpst]

theorem exec_err_iff {i : Instr} {s t : State} (hwf : i.wellFormed = true) (h : exec i s = .next t) :
    (t.io.err = .orderingViolation ↔ OutOfOrder s i) ∧ (t.io.err = .lengthExceeded ↔ BeyondLastBlock s i) := by
  rw [exec_err h]
  cases i <;> simpa using errOf_bodyOf_iff hwf (beginCommand s)

/-- A decoded word is the word of one well-formed command and of no other (R83-R85). -/
theorem exists_command_iff {w : Word} {i : Instr} (h : decode w = .ok i) (P : Instr → Prop) :
    (∃ j : Instr, j.wellFormed = true ∧ encode j = w ∧ P j) ↔ P i := by
  constructor
  · rintro ⟨j, hwf, rfl, hj⟩
    obtain rfl : j = i := by simpa [decode_encode hwf] using h
    exact hj
  · intro hi
    obtain ⟨hwf, hw⟩ := encode_of_decode h
    exact ⟨i, hwf, hw, hi⟩

theorem encode_ne_of_decode_error {w : Word} {e : DecodeError} (h : decode w = .error e) {i : Instr}
    (hwf : i.wellFormed = true) : encode i ≠ w := by
  rintro rfl
  simp [decode_encode hwf] at h

/-- Settles O31: a rejected word is no command's and ends as IllegalCommand; on a command's word the unit state
decides. -/
theorem errorConditions : Obligations.ErrorConditions := by
  intro s
  obtain ⟨t, ht⟩ := coreStep_next s
  refine ⟨t, ht, ?_⟩
  rcases coreStep_cases ht with ⟨i, hi, hx⟩ | ⟨e, he, rfl⟩
  · obtain ⟨hwf, hw⟩ := encode_of_decode hi
    obtain ⟨hordering, hlength⟩ := exec_err_iff hwf hx
    rw [exists_command_iff hi, exists_command_iff hi]
    refine ⟨iff_of_false (exec_err_ne_illegalCommand hwf hx) fun hnone => hnone i hwf hw, ?_, ?_⟩
    · cases i <;> exact hordering
    · cases i <;> exact hlength
  · have hnone : ∀ i : Instr, i.wellFormed = true → encode i ≠ s.io.lcmd := fun _ => encode_ne_of_decode_error he
    exact ⟨iff_of_true (by simp) hnone, iff_of_false (by simp) fun ⟨i, hwf, hw, _⟩ => hnone i hwf hw,
      iff_of_false (by simp) fun ⟨i, hwf, hw, _⟩ => hnone i hwf hw⟩

end Sys2Proof.Machine
end

section
/-! A polite host's program runs on without a stop, and every command it starts completes (spec/60_exceptions.md
R206-R211, spec/70_reset_and_hazards.md R241, R244). -/

namespace Sys2Proof.Machine

/-! Polite programs (R52, R88, R241). -/

theorem polite_read_iff {busy : Bool} {off : BitVec 8} {size : Nat} {ops : List HostOp} :
    polite busy (.read off size :: ops) = true ↔ servedAccess off size = true ∧ polite busy ops = true := by
  simp [polite]

/-- A polite write is served, and it is to CMD or DIN only while no command may be in flight. -/
theorem polite_write_iff {busy : Bool} {off : BitVec 8} {size : Nat} {v : Word} {ops : List HostOp} :
    polite busy (.write off size v :: ops) = true ↔ servedAccess off size = true ∧
      ((regAt off = .cmd ∧ busy = false ∧ polite true ops = true) ∨
        ((∃ j, regAt off = .din j) ∧ busy = false ∧ polite busy ops = true) ∨
        (regAt off ≠ .cmd ∧ (∀ j, regAt off ≠ .din j) ∧ polite busy ops = true)) := by
  rw [polite]
  cases hreg : regAt off <;> simp

/-- A program that is polite with a command in flight is polite without one. -/
theorem polite_of_polite_busy {ops : List HostOp} (busy : Bool) (h : polite true ops = true) :
    polite busy ops = true := by
  induction ops with
  | nil => rfl
  | cons op ops ih =>
    cases op with
    | read off size =>
      obtain ⟨hserved, hrest⟩ := polite_read_iff.mp h
      exact polite_read_iff.mpr ⟨hserved, ih hrest⟩
    | write off size v =>
      obtain ⟨hserved, ⟨-, hidle, -⟩ | ⟨-, hidle, -⟩ | ⟨hcmd, hdin, hrest⟩⟩ := polite_write_iff.mp h
      · cases hidle
      · cases hidle
      · exact polite_write_iff.mpr ⟨hserved, .inr (.inr ⟨hcmd, hdin, ih hrest⟩)⟩
    | poll | reset => exact h

/-! One operation of a polite HOST. -/

section
variable {s : State}

theorem servedRead_polite (r : WinReg) (h : PoliteHost s) : PoliteHost (servedRead r s) := by
  simpa [PoliteHost] using h

theorem memWrite_polite {off : BitVec 8} {size : Nat} {v : Word}
    (h : polite s.io.busy (.write off size v :: s.host.queue) = true) :
    ∃ t, memWrite off size v s = .next t ∧ PoliteHost t := by
  obtain ⟨hserved, ⟨hcmd, hidle, hrest⟩ | ⟨⟨j, hdin⟩, hidle, hrest⟩ | ⟨hcmd, hdin, hrest⟩⟩ := polite_write_iff.mp h
  · exact ⟨startCommand v s, by simp [memWrite_served hserved, servedWrite, hcmd, hidle],
      by simpa [PoliteHost] using hrest⟩
  · exact ⟨writeDin j v s, by simp [memWrite_served hserved, servedWrite, hdin, hidle],
      by simpa [PoliteHost] using hrest⟩
  · obtain ⟨rfl, haligned⟩ := (servedAccess_iff off size).mp hserved
    exact ⟨s, memWrite_ignored haligned hcmd hdin v s, hrest⟩

/-- Behind a POLL the program is polite without a command in flight; with one, the POLL is still to be made. -/
theorem pollStatus_polite (h : polite false s.host.queue = true) : PoliteHost (pollStatus s) := by
  cases hb : s.io.busy <;> simpa [PoliteHost, pollStatus_queue, hb, polite] using h

theorem applyReset_polite (h : polite false s.host.queue = true) : PoliteHost (applyReset s) := by
  simpa [PoliteHost, Interface.reset] using h

theorem serveOp_polite {op : HostOp} (h : polite s.io.busy (op :: s.host.queue) = true) :
    ∃ t, serveOp op s = .next t ∧ PoliteHost t := by
  cases op with
  | read off size =>
    obtain ⟨hserved, hrest⟩ := polite_read_iff.mp h
    exact ⟨_, memRead_served hserved s, servedRead_polite _ hrest⟩
  | write off size v => exact memWrite_polite h
  | poll => exact ⟨_, rfl, pollStatus_polite h⟩
  | reset => exact ⟨_, rfl, applyReset_polite h⟩

end

/-! One step. -/

/-- The CORE's step is over with BUSY = 0 and leaves the HOST (R204). -/
theorem coreStep_busy_host {s t : State} (h : coreStep s = .next t) : t.io.busy = false ∧ t.host = s.host := by
  rcases coreStep_effect h with ⟨i, u, -, hdone, rfl⟩ | ⟨e, -, -, rfl⟩
  · exact ⟨hdone.frameDone.busy, hdone.frameDone.host⟩
  · simp

theorem PoliteHost.step_next {s : State} (h : PoliteHost s) : ∃ t, step s = .next t ∧ PoliteHost t := by
  cases hm : coreMoves s with
  | true =>
    obtain ⟨t, ht⟩ := coreStep_next s
    obtain ⟨hidle, hhost⟩ := coreStep_busy_host ht
    have hbusy : s.io.busy = true := ((coreMoves_eq_true_iff s).mp hm).1
    refine ⟨t, (step_eq_coreStep hm).trans ht, ?_⟩
    rw [PoliteHost, hbusy] at h
    rw [PoliteHost, hidle, hhost]
    exact polite_of_polite_busy false h
  | false =>
    rw [step_eq_hostStep hm]
    cases hq : s.host.queue with
    | nil => exact ⟨s, hostStep_nil hq, h⟩
    | cons op rest =>
      rw [hostStep_cons hq]
      exact serveOp_polite (by simpa [PoliteHost, hq] using h)

/-- Settles O53: every step of a polite host goes on to a state with a polite host. -/
theorem politeHostNeverStops : Obligations.PoliteHostNeverStops := by
  intro s h k
  induction k generalizing s with
  | zero => exact ⟨s, rfl, h⟩
  | succ k ih =>
    obtain ⟨t, ht, hpolite⟩ := h.step_next
    rw [run_succ ht]
    exact ih t hpolite

/-! The command in flight (R209, R244; assumption log 3). -/

/-- While a command is in flight, no operation of the HOST changes how many are still to be served: only a CMD write
draws that number. -/
theorem serveOp_wait {op : HostOp} {s t : State} (h : serveOp op s = .next t) (hb : s.io.busy = true) :
    t.host.wait = s.host.wait := by
  rcases serveOp_cases h with ⟨r, rfl⟩ | rfl | rfl | ⟨v, -, hidle⟩ | ⟨j, v, -, hidle⟩ | rfl
  · simp
  · simp
  · simp
  · simp [hb] at hidle
  · simp [hb] at hidle
  · rfl

/-- A HOST step while a command is in flight uses up one of the operations that come before the CORE's step. -/
theorem step_wait {s t : State} (hb : s.io.busy = true) (hm : coreMoves s = false) (h : step s = .next t) :
    t.host.wait + 1 = s.host.wait := by
  have hwait : s.host.wait ≠ 0 := fun hzero => by simp [(coreMoves_eq_true_iff s).mpr ⟨hb, .inr hzero⟩] at hm
  rcases step_cases h with ⟨hcore, -⟩ | ⟨-, -, hidle, -⟩ | ⟨-, op, rest, -, hop⟩
  · simp [hm] at hcore
  · simp [hb] at hidle
  · have hserved := serveOp_wait hop (by simpa using hb)
    rw [popOp_host_wait] at hserved
    omega

/-- Settles O52, by induction on the number of operations still to be served: either the CORE moves, or the HOST's step
uses up one of them or is a reset. -/
theorem commandFinishes : Obligations.CommandFinishes := by
  intro s hb h
  induction hw : s.host.wait using Nat.strong_induction_on generalizing s with
  | _ w ih =>
    obtain ⟨t, ht, hpolite⟩ := h.step_next
    have hone : t.io.busy = false → ∃ n u, n ≤ w + 1 ∧ Sys2Proof.core.run n s = .next u ∧ u.io.busy = false :=
      fun hidle => ⟨1, t, by omega, run_succ_iff.mpr ⟨t, ht, rfl⟩, hidle⟩
    cases hm : coreMoves s with
    | true => exact hone (coreStep_busy_host ((step_eq_coreStep hm).symm.trans ht)).1
    | false =>
      have hwait := step_wait hb hm ht
      cases htb : t.io.busy with
      | false => exact hone htb
      | true =>
        obtain ⟨n, u, hn, hrun, hidle⟩ := ih t.host.wait (by omega) t htb hpolite rfl
        exact ⟨n + 1, u, by omega, run_succ_iff.mpr ⟨t, ht, hrun⟩, hidle⟩

end Sys2Proof.Machine
end

section
/-! Reset and the accesses around a command in flight (spec/70_reset_and_hazards.md R230-R232, R240, R241, R245). -/

namespace Sys2Proof.Machine

/-! Results (R245). -/

/-- Settles O54: of the three kinds of step only the CORE's and a reset touch the results or a unit. -/
theorem resultsPersist : Obligations.ResultsPersist := by
  intro s t hm hnoreset hstep
  rcases step_effect hstep with ⟨hcore, -⟩ | ⟨hreset, -⟩ | ⟨-, hkept, -⟩
  · simp [hm] at hcore
  · exact absurd hreset hnoreset
  · exact ⟨hkept.units, hkept.dout, hkept.outlen, hkept.err, hkept.matched⟩

/-! Reads with BUSY = 1 (R240). -/

theorem servedRead_busy {s : State} (hb : s.io.busy = true) (r : WinReg) :
    servedRead r s = takeDraw (recordRead (readRegBusy (freeDraw s) r) s) := if_pos hb

/-- The word a busy read returns, by its offset: STATUS with bit 0 set, the draw where R240 leaves the value open, and 0
elsewhere. -/
theorem readRegBusy_regAt (free : Word) (off : BitVec 8) :
    readRegBusy free (regAt off) =
      if off.toNat = 0x04 then free ||| 1
      else if off.toNat = 0x08 ∨ off.toNat = 0x0C ∨ off.toNat = 0x10 ∨ (0x80 ≤ off.toNat ∧ off.toNat < 0xC0) then free
      else 0 := by
  unfold regAt
  split_ifs
  any_goals rfl
  -- What is left are branches that put one offset in two disjoint ranges.
  all_goals omega

/-- Settles O41: a busy read records the word at its offset and takes one draw. -/
theorem busyReads : Obligations.BusyReads := by
  intro s off hb haligned
  refine ⟨takeDraw (recordRead (readRegBusy (freeDraw s) (regAt off)) s), readRegBusy (freeDraw s) (regAt off), ?read,
    by simp, ⟨by simp, by simp, by simp⟩, by simp, by simp, by simp, by simp, ?values⟩
  case read => rw [memRead_served (servedAccess_aligned haligned), servedRead_busy hb]
  case values =>
    rw [readRegBusy_regAt, freeDraw]
    refine ⟨fun hstatus => ?status, fun hdraw => ?draw, fun hzero => ?zero⟩
    case status =>
      rw [if_pos hstatus]
      exact ⟨by simp, fun i hi => by simp [hi]⟩
    case draw => rw [if_neg (by omega), if_pos hdraw]
    case zero => rw [if_neg (by omega), if_neg (by omega)]

/-! Writes with BUSY = 1 (R241). -/

theorem memWrite_cmd_busy (v : Word) {s : State} (hb : s.io.busy = true) :
    memWrite 0x00 4 v s = .fault .hostProtocolViolation := by
  rw [memWrite_served rfl]
  exact if_pos hb

theorem memWrite_din_busy (j : Fin 16) (v : Word) {s : State} (hb : s.io.busy = true) :
    memWrite (BitVec.ofNat 8 (0x40 + 4 * j.val)) 4 v s = .fault .hostProtocolViolation := by
  rw [memWrite_served (servedAccess_din j), regAt_din]
  exact if_pos hb

/-- Settles O42: the offsets of CMD and DIN are refused, and at the others a write is ignored whatever BUSY is. -/
theorem busyWrites : Obligations.BusyWrites := by
  intro s off v hb haligned
  refine ⟨fun htaken => ?refused, fun ⟨hcmd, hrange⟩ => ?ignored⟩
  case refused =>
    rcases htaken with hzero | hrange
    · obtain rfl : off = 0x00 := BitVec.eq_of_toNat_eq hzero
      exact memWrite_cmd_busy v hb
    · obtain ⟨j, rfl⟩ := exists_wordOffset haligned rfl hrange
      exact memWrite_din_busy j v hb
  case ignored =>
    exact memWrite_ignored haligned (fun h => hcmd (by rw [regAt_eq_cmd h]; rfl))
      (fun _ h => hrange (regAt_din_range h)) v s

/-! Reset (R230-R232). -/

/-- Settles O49: a reset due next is the HOST's step, and that step is `applyReset`. -/
theorem resetWipes : Obligations.ResetWipes := by
  intro s rest hm hq
  have hstep : step s = .next (applyReset (popOp rest s)) := (step_eq_hostStep hm).trans (hostStep_cons hq)
  exact ⟨_, hstep, applyReset_io _, applyReset_ksg _, applyReset_dp _, applyReset_p _, by simp, by simp⟩

/-- Settles O50: each part of the invariant holds of the part's reset value. -/
theorem resetMeetsInvariant : Obligations.ResetMeetsInvariant :=
  ⟨interfaceInv_reset, ksgInv_reset, datapathInv_reset, p1305Inv_wiped .unkeyed⟩

theorem byteAt_zeros (n i : Nat) : byteAt (zeros 8 n) i = 0 := by
  by_cases hi : i < n <;> simp [byteAt, hi]

theorem le32_zeros (n i : Nat) : le32 (zeros 8 n) i = 0 := by
  simp only [le32, byteAt_zeros]
  decide

theorem readReg_reset (r : WinReg) : readReg State.reset r = 0 := by
  cases r with
  | dout j => exact le32_zeros 64 (4 * j.val)
  | _ => rfl

/-- Settles O48: the registers by the definition of the reset state, and the reads by the words they return. -/
theorem resetValues : Obligations.ResetValues := by
  have harray (w n : Nat) (i : Fin n) : (zeros w n)[i] = 0 := zeros_getElem w n i.val i.isLt
  exact ⟨rfl, rfl, rfl, rfl, rfl, rfl, rfl, rfl, rfl, harray 32 8, harray 32 3, harray 8 64, harray 8 64, harray 32 16,
    harray 32 16, harray 8 64, rfl, rfl, rfl, rfl, harray 32 5, harray 32 4, harray 32 5, harray 8 16, rfl, rfl,
    fun off _ => readReg_reset (regAt off)⟩

end Sys2Proof.Machine
end
